-- ==== Sys2Proof/Word.lean ====
section
/-! DEFINITION. The word types of the block (00_scope R6: every value is unsigned, bit 0 is the least significant). -/

namespace Sys2Proof

/-- A byte of the serial stream, bits 7..0 (00_scope R6). -/
abbrev Byte := BitVec 8

/-- A 16-bit field or result register, in tenths of µg/m³ (10_state R30, R31, R34, R35). -/
abbrev Half := BitVec 16

/-- A transaction word of format T: `r v bbbbbbbb` (30_encoding R70). -/
abbrev Word := BitVec 10

/-- A byte position as the register `idx` holds it, 4 bits (10_state R25). -/
abbrev Pos := BitVec 4

end Sys2Proof
end

