-- ==== Sys2Proof/Syntax.lean ====
section
/-! DEFINITION. The transactions and BYTE micro-operations, one constructor per row of spec/opcode_table.json. -/

namespace Sys2Proof

/-- One constructor per row of the opcode table. The only operand is the byte offered, `b` (30_encoding R74); the
`in_valid` and `in_byte` bits that RESET and IDLE ignore are no operands (40_transactions R100, R101). -/
inductive Instr where
  /-- RESET (R100). -/
  | reset
  /-- IDLE (R101). -/
  | idle
  /-- BYTE.REFUSED, a byte offered while halted (R105). -/
  | byteRefused (b : Byte)
  /-- BYTE.MAGIC0, position 0 (R120). -/
  | byteMagic0 (b : Byte)
  /-- BYTE.MAGIC1, position 1 (R121). -/
  | byteMagic1 (b : Byte)
  /-- BYTE.P25L, position 2 (R122). -/
  | byteP25l (b : Byte)
  /-- BYTE.P25H, position 3 (R123). -/
  | byteP25h (b : Byte)
  /-- BYTE.P10L, position 4 (R124). -/
  | byteP10l (b : Byte)
  /-- BYTE.P10H, position 5 (R125). -/
  | byteP10h (b : Byte)
  /-- BYTE.RSV0, position 6 (R126). -/
  | byteRsv0 (b : Byte)
  /-- BYTE.RSV1, position 7 (R127). -/
  | byteRsv1 (b : Byte)
  /-- BYTE.CKSUM, position 8 (R128). -/
  | byteCksum (b : Byte)
  /-- BYTE.TAIL, position 9 (R129). -/
  | byteTail (b : Byte)
  deriving DecidableEq, Repr

end Sys2Proof
end

