-- ==== Sys2Proof/WellFormed.lean ====
section
/-! DEFINITION. Well-formedness: of an instruction (every operand value is legal), of the number a transaction word is written
as, and of the operands of the stimulus syntax. -/

namespace Sys2Proof

/-- Every byte is a legal operand of every micro-operation, and RESET and IDLE have none (30_encoding R74, R78, R79: "There are
no illegal, reserved, hint or custom encodings in format T"). -/
def Instr.wf : Instr → Bool
  | .reset => true
  | .idle => true
  | .byteRefused _ => true
  | .byteMagic0 _ => true
  | .byteMagic1 _ => true
  | .byteP25l _ => true
  | .byteP25h _ => true
  | .byteP10l _ => true
  | .byteP10h _ => true
  | .byteRsv0 _ => true
  | .byteRsv1 _ => true
  | .byteCksum _ => true
  | .byteTail _ => true

/-- A number is a transaction word exactly when it has at most the ten bits of format T (30_encoding R70, R79). -/
def wordBitsOk (w : Nat) : Bool := w < 1024

/-- A byte literal is 0..255: "A literal outside 0..255 is refused by the transcriber" (30_encoding R81). -/
def byteLiteralOk (n : Nat) : Bool := n ≤ 255

/-- The count of `idle <k>` is at least 1 (30_encoding R82). -/
def idleCountOk (k : Nat) : Bool := 1 ≤ k

/-- `frame` has exactly 10 literals, each a byte literal (30_encoding R82). -/
def frameLiteralsOk (bs : List Nat) : Bool := bs.length == 10 && bs.all byteLiteralOk

/-- `p25` and `p10` of `good` are 0..65535 (30_encoding R82). -/
def rawLiteralOk (n : Nat) : Bool := n ≤ 65535

end Sys2Proof
end

