-- ==== Sys2Proof/Decode.lean ====
section
/-! DEFINITION. The decoder and the encoder of format T (30_encoding): the transaction word, the selection of a BYTE's
micro-operation from the state, and the opcode table's match, mask and guard columns. -/

namespace Sys2Proof

/-- The three transactions a word can ask for (30_encoding R71). -/
inductive Transaction where
  | reset
  | idle
  | byte (b : Byte)
  deriving DecidableEq, Repr

/-- What the decoder answers for a word in a state: a row of the opcode table, or one of the two model outcomes of
30_encoding R73. -/
inductive Selection where
  | instr (i : Instr)
  /-- A BYTE before the first RESET (10_state R38). -/
  | notReset
  /-- A BYTE at a position 10..15 (R73). -/
  | unreachableIdx
  deriving DecidableEq, Repr

/-- Why a number is not a transaction word. -/
inductive DecodeError where
  /-- A bit above bit 9 is set: format T has ten bits (30_encoding R70). -/
  | notTenBits
  deriving DecidableEq, Repr

/-- Field `r` of format T, bit 9, the port `rst` (R70). -/
def fieldR (w : Word) : Bool := w.getLsbD 9

/-- Field `v` of format T, bit 8, the port `in_valid` (R70). -/
def fieldV (w : Word) : Bool := w.getLsbD 8

/-- Field `b` of format T, bits 7:0, the port `in_byte` (R70). -/
def fieldB (w : Word) : Byte := w.setWidth 8

/-- `decode_T`, total over the 1024 words; RESET dominates (30_encoding R71, 60_exceptions R195). -/
def decodeT (w : Word) : Transaction :=
  if fieldR w then .reset
  else if fieldV w then .byte (fieldB w)
  else .idle

/-- The micro-operation of an accepted byte at position `idx`, positions 0..9 (30_encoding R73). -/
def selectPosition (idx : Pos) (b : Byte) : Selection :=
  match idx.toNat with
  | 0 => .instr (.byteMagic0 b)
  | 1 => .instr (.byteMagic1 b)
  | 2 => .instr (.byteP25l b)
  | 3 => .instr (.byteP25h b)
  | 4 => .instr (.byteP10l b)
  | 5 => .instr (.byteP10h b)
  | 6 => .instr (.byteRsv0 b)
  | 7 => .instr (.byteRsv1 b)
  | 8 => .instr (.byteCksum b)
  | 9 => .instr (.byteTail b)
  | _ => .unreachableIdx

/-- The BYTE dispatch, in the order of 40_transactions R102. -/
def selectByte (rstSeen halted : Bool) (idx : Pos) (b : Byte) : Selection :=
  if rstSeen = false then .notReset
  else if halted then .instr (.byteRefused b)
  else selectPosition idx b

/-- The instruction a word asks for in a state with these `rst_seen`, `halted` and `idx` (30_encoding R71, R73). -/
def decode (rstSeen halted : Bool) (idx : Pos) (w : Word) : Selection :=
  match decodeT w with
  | .reset => .instr .reset
  | .idle => .instr .idle
  | .byte b => selectByte rstSeen halted idx b

/-- The ten-bit word whose bits, numbered as the opcode table numbers them, are the low `nbits` bits of `w`.
DESIGN CHOICE (log 10): a number with a bit set above bit 9 is no transaction word and is rejected by name. Safe. -/
def wordOfBits (nbits w : Nat) : Except DecodeError Word :=
  if wordBitsOk (w % 2 ^ nbits) then .ok (BitVec.ofNat 10 (w % 2 ^ nbits))
  else .error .notTenBits

/-- The instruction the decoder reads from these bits. The BYTE rows of the opcode table have the same words and differ in
their guards only, so the word alone does not name a row: DESIGN CHOICE (log 9), it is read as in the state right after reset
(`rst_seen = 1`, `halted = 0`, `idx = 0`). Safe: no step uses this function. -/
def decodeTableWord (nbits w : Nat) : Option Instr :=
  match wordOfBits nbits w with
  | .error _ => none
  | .ok v =>
    match decode true false 0 v with
    | .instr i => some i
    | .notReset => none
    | .unreachableIdx => none

/-! The encoder. -/

/-- The canonical word of BYTE `b`, `0x100 | b` (30_encoding R72). -/
def byteWord (b : Byte) : Word := 0x100#10 ||| b.setWidth 10

/-- The canonical word of each row (30_encoding R72). -/
def encode : Instr → Word
  | .reset => 0x200#10
  | .idle => 0x000#10
  | .byteRefused b => byteWord b
  | .byteMagic0 b => byteWord b
  | .byteMagic1 b => byteWord b
  | .byteP25l b => byteWord b
  | .byteP25h b => byteWord b
  | .byteP10l b => byteWord b
  | .byteP10h b => byteWord b
  | .byteRsv0 b => byteWord b
  | .byteRsv1 b => byteWord b
  | .byteCksum b => byteWord b
  | .byteTail b => byteWord b

/-! The opcode table's columns. -/

/-- The `match` column of the row. -/
def tableMatch : Instr → Word
  | .reset => 0x200#10
  | .idle => 0x000#10
  | .byteRefused _ => 0x100#10
  | .byteMagic0 _ => 0x100#10
  | .byteMagic1 _ => 0x100#10
  | .byteP25l _ => 0x100#10
  | .byteP25h _ => 0x100#10
  | .byteP10l _ => 0x100#10
  | .byteP10h _ => 0x100#10
  | .byteRsv0 _ => 0x100#10
  | .byteRsv1 _ => 0x100#10
  | .byteCksum _ => 0x100#10
  | .byteTail _ => 0x100#10

/-- The `mask` column of the row. -/
def tableMask : Instr → Word
  | .reset => 0x200#10
  | .idle => 0x300#10
  | .byteRefused _ => 0x300#10
  | .byteMagic0 _ => 0x300#10
  | .byteMagic1 _ => 0x300#10
  | .byteP25l _ => 0x300#10
  | .byteP25h _ => 0x300#10
  | .byteP10l _ => 0x300#10
  | .byteP10h _ => 0x300#10
  | .byteRsv0 _ => 0x300#10
  | .byteRsv1 _ => 0x300#10
  | .byteCksum _ => 0x300#10
  | .byteTail _ => 0x300#10

/-- The `guard` column of the row, the conditions of 30_encoding R73 on the pre-step state. -/
def tableGuard (rstSeen halted : Bool) (idx : Pos) : Instr → Bool
  | .reset => true
  | .idle => true
  | .byteRefused _ => rstSeen && halted
  | .byteMagic0 _ => rstSeen && !halted && idx == 0#4
  | .byteMagic1 _ => rstSeen && !halted && idx == 1#4
  | .byteP25l _ => rstSeen && !halted && idx == 2#4
  | .byteP25h _ => rstSeen && !halted && idx == 3#4
  | .byteP10l _ => rstSeen && !halted && idx == 4#4
  | .byteP10h _ => rstSeen && !halted && idx == 5#4
  | .byteRsv0 _ => rstSeen && !halted && idx == 6#4
  | .byteRsv1 _ => rstSeen && !halted && idx == 7#4
  | .byteCksum _ => rstSeen && !halted && idx == 8#4
  | .byteTail _ => rstSeen && !halted && idx == 9#4

/-- The byte a row takes from field `b` of the word; RESET and IDLE take none (30_encoding R74). -/
def operandByte : Instr → Option Byte
  | .reset => none
  | .idle => none
  | .byteRefused b => some b
  | .byteMagic0 b => some b
  | .byteMagic1 b => some b
  | .byteP25l b => some b
  | .byteP25h b => some b
  | .byteP10l b => some b
  | .byteP10h b => some b
  | .byteRsv0 b => some b
  | .byteRsv1 b => some b
  | .byteCksum b => some b
  | .byteTail b => some b

end Sys2Proof
end

