-- ==== Sys2Proof/Machine/Params.lean ====
section
/-! DEFINITION. The constants fixed in this hardware (00_scope R4). RSV0 and RSV1
(positions 6 and 7) enter the sum only, so no definition names them; CK_MOD is the width of `add8`; ERROR_POLICY = HALT is
`raiseFrameError`. -/

namespace Sys2Proof.Machine

/-- FRAME_LEN: bytes per frame. -/
abbrev frameLen : Nat := 10

/-- MAGIC0: required value of byte 0. -/
def magic0 : Byte := 0xAA#8

/-- MAGIC1: required value of byte 1. -/
def magic1 : Byte := 0xC0#8

/-- TAIL: required value of byte 9. -/
def tailMagic : Byte := 0xAB#8

/-- CK_FIRST: first byte summed into the checksum. -/
abbrev ckFirst : Nat := 2

/-- CK_LAST: last byte summed into the checksum. -/
abbrev ckLast : Nat := 7

/-- CK_POS: position of the embedded checksum byte. -/
abbrev ckPos : Nat := 8

/-- PM25_LO: the PM2.5 low byte. -/
abbrev pm25Lo : Nat := 2

/-- PM25_HI: the PM2.5 high byte. -/
abbrev pm25Hi : Nat := 3

/-- PM10_LO: the PM10 low byte. -/
abbrev pm10Lo : Nat := 4

/-- PM10_HI: the PM10 high byte. -/
abbrev pm10Hi : Nat := 5

/-- SCALE_DIV: divisor of the raw field. -/
def scaleDiv : Nat := 10

end Sys2Proof.Machine
end

