-- ==== Sys2Proof/Machine/Operands.lean ====
section
/-! DEFINITION. The byte and field operations the micro-operations share: the 8-bit sum, the little-endian field and its two
halves (42_validation_and_scaling R151, R152, R174). -/

namespace Sys2Proof.Machine

/-- `a +₈ b`, the 8-bit sum; the carry is discarded (00_scope R6, 42_validation_and_scaling R174). CK_MOD = 256 is the width. -/
def add8 (a b : Byte) : Byte := a + b

/-- `U16(lo, hi) = {hi, lo}`, the little-endian 16-bit field (42_validation_and_scaling R152, 20_memory R52). -/
def u16 (lo hi : Byte) : Half := hi ++ lo

/-- Bits [7:0] of a field register. -/
def lowByte (f : Half) : Byte := f.extractLsb' 0 8

/-- Bits [15:8] of a field register. -/
def highByte (f : Half) : Byte := f.extractLsb' 8 8

/-- `f[7:0] <- b`: the other half keeps its value (10_state R30, R31). -/
def setLowByte (f : Half) (b : Byte) : Half := u16 b (highByte f)

/-- `f[15:8] <- b`: the other half keeps its value (10_state R30, R31). -/
def setHighByte (f : Half) (b : Byte) : Half := u16 (lowByte f) b

/-- The position after an accepted byte: `(idx = 9) ? 0 : idx + 1` (40_transactions R104). -/
def nextPos (idx : Pos) : Pos := if idx = 9#4 then 0#4 else idx + 1#4

end Sys2Proof.Machine
end

