-- ==== Sys2Proof/Config.lean ====
section
/-! DEFINITION. What an implementation fixes (the floating-point format of the scaled outputs) and the free values: what the
registers and the output ports hold before the first RESET. The free values are opaque: no proof can see one. -/

namespace Sys2Proof

/-- `FLOAT_FMT`, the one parameter the spec leaves to the model as an argument (00_scope R5, decision D10).
DESIGN CHOICE (log 7): an argument of the scaler and of the outputs, never a field of State. Safe. -/
inductive FloatFmt where
  | binary32
  | binary64
  deriving DecidableEq, Repr

namespace FloatFmt

/-- `FW`, the width of a scaled output (00_scope R5). -/
def width : FloatFmt → Nat
  | binary32 => 32
  | binary64 => 64

/-- Width of the fraction field (42_validation_and_scaling R161: bits 22:0, bits 51:0). -/
def fracBits : FloatFmt → Nat
  | binary32 => 23
  | binary64 => 52

/-- Width of the biased exponent field (R161: bits 30:23, bits 62:52). -/
def expBits : FloatFmt → Nat
  | binary32 => 8
  | binary64 => 11

/-- The exponent bias (R161). -/
def bias : FloatFmt → Nat
  | binary32 => 127
  | binary64 => 1023

end FloatFmt

namespace Config

/-- The spec's default format, `FW = 64` (00_scope R5). -/
def defaultFloatFmt : FloatFmt := .binary64

/-! Power-on contents of the registers: "a draw, under no law" (10_state R38). DESIGN CHOICE (log 4): free values. Safe. -/

opaque powerOnIdx : Pos
opaque powerOnHalted : Bool
opaque powerOnHdrOk : Bool
opaque powerOnAcc : Byte
opaque powerOnCkOk : Bool
opaque powerOnF25 : Half
opaque powerOnF10 : Half
opaque powerOnResValid : Bool
opaque powerOnStatus : BitVec 2
opaque powerOnPm25Raw : Half
opaque powerOnPm10Raw : Half

/-! What the output ports show before the first RESET: "every output is an unconstrained draw" (10_state R22, R38), drawn anew
at every step (the argument is the counter `State.draws`). DESIGN CHOICE (log 17): free values. Safe. -/

opaque drawInReady : Nat → Bool
opaque drawStat : Nat → BitVec 8
opaque drawPm25Raw : Nat → Half
opaque drawPm10Raw : Nat → Half
opaque drawPm25F (fmt : FloatFmt) : Nat → BitVec fmt.width
opaque drawPm10F (fmt : FloatFmt) : Nat → BitVec fmt.width

end Config

end Sys2Proof
end

