-- ==== Sys2Proof/Machine/State.lean ====
section
/-! DEFINITION. The block's state (10_state R24 to R35), the state after reset (R39), the state at power-on (R38), and the
reasons a step can stop. There is no memory: "The block has no addressable memory" (20_memory R50; log 12). -/

namespace Sys2Proof.Machine

/-- The outcome of the most recently completed frame, register `status` (10_state R33). All four codes of the 2-bit register
are defined, so the register is held by name (log 14); its number is `statusCode`. -/
inductive FrameStatus where
  /-- 0: no frame has completed since reset. -/
  | none
  /-- 1: the frame passed both checks. -/
  | ok
  /-- 2: byte 0, byte 1 or byte 9 wrong. -/
  | invalidHeader
  /-- 3: header and tail matched, checksum wrong. -/
  | checksumMismatch
  deriving DecidableEq, Repr

/-- Everything the spec gives the block (10_state R20), and the model's own two fields `inputs` and `draws`. -/
structure State where
  /-- `rst_seen`, model-only: a RESET has happened (R24). -/
  rstSeen : Bool
  /-- `idx`, the position the next accepted byte takes (R25). -/
  idx : Pos
  /-- `halted`: a frame error has been reported (R26). -/
  halted : Bool
  /-- `hdr_ok`, the running match of the magic bytes (R27). -/
  hdrOk : Bool
  /-- `acc`, the checksum accumulator (R28). -/
  acc : Byte
  /-- `ck_ok`: the checksum byte matched (R29). -/
  ckOk : Bool
  /-- `f25`, the unpacker register of PM2.5 (R30). -/
  f25 : Half
  /-- `f10`, the unpacker register of PM10 (R31). -/
  f10 : Half
  /-- `res_valid` (R32). -/
  resValid : Bool
  /-- `status` (R33). -/
  status : FrameStatus
  /-- `pm25_raw` (R34). -/
  pm25Raw : Half
  /-- `pm10_raw` (R35). -/
  pm10Raw : Half
  /-- The model's own: the transaction words the host has still to offer, one a step, next first; it stands for the input
  ports of R21. DESIGN CHOICE (log 1). Safe. -/
  inputs : List Word
  /-- The model's own: how many steps were taken before the first RESET; the free values on the output ports are applied to
  it (R22, R38). DESIGN CHOICE (log 6). -/
  draws : Nat
  deriving DecidableEq, Repr

/-- Why the machine stops with a fault. -/
inductive Fault where
  /-- A BYTE before the first RESET (10_state R38, 40_transactions R102). Raised by the fetch of a step and by every BYTE
  meaning. Safe: "it refuses runs that a real block might execute in some unknown way". -/
  | notReset
  deriving DecidableEq, Repr

/-- Why a step has no meaning. -/
inductive Refusal where
  /-- Not modelled yet. No arm of exec uses it. Safe. -/
  | notModelled (mnemonic : String)
  /-- A BYTE at a position 10..15 after a RESET (30_encoding R73, 60_exceptions R192: `refuse UnreachableIdx`). Raised by the
  fetch of a step and by every BYTE.<position> meaning. Safe. -/
  | unreachableIdx
  /-- A BYTE row executed in a state in which 30_encoding R73 selects another row. Raised by the BYTE meanings; no step raises
  it, since a step executes the row it selects (log 11). Safe. -/
  | notSelected
  /-- The host offers no further step: "A run is over when the host stops offering steps" (70_reset_and_hazards R229). Raised
  by a step that finds `inputs` empty (log 1). Safe. -/
  | endOfRun
  deriving DecidableEq, Repr

/-- The state right after a RESET (10_state R39), with no transaction word offered. The two last fields are the model's own:
DESIGN CHOICE (logs 1, 6). -/
def State.reset : State where
  rstSeen := true
  idx := 0#4
  halted := false
  hdrOk := false
  acc := 0x00#8
  ckOk := false
  f25 := 0x0000#16
  f10 := 0x0000#16
  resValid := false
  status := .none
  pm25Raw := 0x0000#16
  pm10Raw := 0x0000#16
  inputs := []
  draws := 0

/-- The names of the four codes (10_state R33). -/
def FrameStatus.ofCode (c : BitVec 2) : FrameStatus :=
  match c.toNat with
  | 0 => .none
  | 1 => .ok
  | 2 => .invalidHeader
  | _ => .checksumMismatch

/-- The state at power-on: `rst_seen = 0` and every register a draw (10_state R38; log 4). -/
def State.powerOn : State where
  rstSeen := false
  idx := Config.powerOnIdx
  halted := Config.powerOnHalted
  hdrOk := Config.powerOnHdrOk
  acc := Config.powerOnAcc
  ckOk := Config.powerOnCkOk
  f25 := Config.powerOnF25
  f10 := Config.powerOnF10
  resValid := Config.powerOnResValid
  status := .ofCode Config.powerOnStatus
  pm25Raw := Config.powerOnPm25Raw
  pm10Raw := Config.powerOnPm10Raw
  inputs := []
  draws := 0

end Sys2Proof.Machine
end

