-- ==== Sys2Proof/Machine/Flags.lean ====
section
/-! DEFINITION. Every flag the block computes: the magic-byte detector, the tail wire, the checksum compare, and the number of
the outcome code (10_state R27, R29, R33, R41). Each compare is exact over all 8 bits (30_encoding R77). -/

namespace Sys2Proof.Machine

/-- `hdr_ok` after byte 0 (41_frame_bytes R120). -/
def hdrAfterMagic0 (b : Byte) : Bool := b == magic0

/-- `hdr_ok` after byte 1: it can only stay or fall to 0 (41_frame_bytes R121). -/
def hdrAfterMagic1 (hdrOk : Bool) (b : Byte) : Bool := hdrOk && b == magic1

/-- `ck_ok`: byte 8 against the accumulator (41_frame_bytes R128). -/
def checksumMatches (acc b : Byte) : Bool := b == acc

/-- The wire `tail_ok` of position 9 (41_frame_bytes R129). -/
def tailMatches (b : Byte) : Bool := b == tailMagic

/-- The 2-bit code of an outcome (10_state R33). -/
def statusCode : FrameStatus → BitVec 2
  | .none => 0#2
  | .ok => 1#2
  | .invalidHeader => 2#2
  | .checksumMismatch => 3#2

end Sys2Proof.Machine
end

