-- ==== Sys2Proof/Machine/Ops.lean ====
section
/-! DEFINITION. The operations the meanings share: register writes, the acceptance of a byte at a position (40_transactions R102
to R104), the error completion `raise FrameError(kind)` (60_exceptions R193) and the two completions beside it, RESET's
write of every register, and what a step takes from the input ports. -/

namespace Sys2Proof.Machine

/-! Register writes. All writes of a step take effect together (00_scope R9): a meaning computes every value from the pre-step
state and chains these writes. -/

def State.setIdx (s : State) (v : Pos) : State := { s with idx := v }
def State.setHalted (s : State) (v : Bool) : State := { s with halted := v }
def State.setHdrOk (s : State) (v : Bool) : State := { s with hdrOk := v }
def State.setAcc (s : State) (v : Byte) : State := { s with acc := v }
def State.setCkOk (s : State) (v : Bool) : State := { s with ckOk := v }
def State.setF25 (s : State) (v : Half) : State := { s with f25 := v }
def State.setF10 (s : State) (v : Half) : State := { s with f10 := v }
def State.setResValid (s : State) (v : Bool) : State := { s with resValid := v }

/-- `status` and the two result registers, which only a completion writes together (10_state R33 to R35). -/
def State.setResult (s : State) (st : FrameStatus) (p25 p10 : Half) : State :=
  { s with status := st, pm25Raw := p25, pm10Raw := p10 }

/-- The transaction words still to be offered (the model's own field). -/
def State.setInputs (s : State) (ws : List Word) : State := { s with inputs := ws }

/-- Advances the counter of draws (the model's own field). -/
def State.countDraw (s : State) : State := { s with draws := s.draws + 1 }

/-! Acceptance. -/

/-- Whether a byte is accepted on a step with these inputs: exactly when `rst = 0`, `in_valid = 1`, `rst_seen = 1` and
`halted = 0` before the step (40_transactions R103). -/
def accepts (s : State) (w : Word) : Bool :=
  !fieldR w && fieldV w && s.rstSeen && !s.halted

/-- Executes the micro-operation of position `p`: the checks of 40_transactions R102 in their order, then the writes `write` and
the position advance of R104, all from the pre-step state. In a state in which R73 selects another row there is nothing to
execute: refused by name (log 11). -/
def acceptAt (p : Pos) (write : State → State) (s : State) : Host.Outcome State Fault Refusal :=
  if s.rstSeen = false then .fault .notReset
  else if s.halted then .refused .notSelected
  else if 9 < s.idx.toNat then .refused .unreachableIdx
  else if s.idx = p then .next ((write s).setIdx (nextPos s.idx))
  else .refused .notSelected

/-- A byte while halted: nothing is written (40_transactions R105), under R102's checks. -/
def refuseByte (s : State) : Host.Outcome State Fault Refusal :=
  if s.rstSeen = false then .fault .notReset
  else if s.halted then .next s
  else if 9 < s.idx.toNat then .refused .unreachableIdx
  else .refused .notSelected

/-! Completion. -/

/-- The two kinds of frame error (60_exceptions R190). -/
inductive FrameError where
  | invalidHeader
  | checksumMismatch
  deriving DecidableEq, Repr

/-- The outcome code a frame error writes (60_exceptions R193). -/
def errorStatus : FrameError → FrameStatus
  | .invalidHeader => .invalidHeader
  | .checksumMismatch => .checksumMismatch

/-- `raise FrameError(kind)`, the block's one exception entry: the code, both result registers cleared, halted
(60_exceptions R193). There is no handler and no saved state; the way out is RESET (R197). -/
def raiseFrameError (kind : FrameError) (s : State) : State :=
  (s.setResult (errorStatus kind) 0x0000#16 0x0000#16).setHalted true

/-- The successful completion: the fields reach the visible registers (41_frame_bytes R129, third arm). -/
def completeOk (s : State) : State := s.setResult .ok s.f25 s.f10

/-- The completion of a frame at its tail byte; a header or tail failure wins over the checksum (41_frame_bytes R129,
60_exceptions R194). -/
def completeFrame (tailOk : Bool) (s : State) : State :=
  if !(s.hdrOk && tailOk) then (raiseFrameError .invalidHeader s).setResValid true
  else if !s.ckOk then (raiseFrameError .checksumMismatch s).setResValid true
  else (completeOk s).setResValid true

/-! RESET and the steps before it. -/

/-- RESET's writes: every register to its value of 10_state R39 whatever the state before (40_transactions R100). The model's own
two fields stay. -/
def resetRegisters (s : State) : State := { State.reset with inputs := s.inputs, draws := s.draws }

/-- A step that writes no register: before the first RESET the output ports may show another draw after it (10_state R38;
log 5, log 17). -/
def passStep (s : State) : State := if s.rstSeen then s else s.countDraw

/-! The input ports. -/

/-- What a step takes from the input ports: the next transaction word, and the state with that word consumed (10_state R21,
00_scope R9: one input vector per step, accepted or not). -/
def takeWord (s : State) : Option (Word × State) :=
  match s.inputs with
  | [] => none
  | w :: rest => some (w, s.setInputs rest)

/-- The row of the opcode table a word selects in a state (30_encoding R73). -/
def select (s : State) (w : Word) : Selection := decode s.rstSeen s.halted s.idx w

/-- Offers the words `ws`, first first, before those already waiting. -/
def State.offer (s : State) (ws : List Word) : State := s.setInputs (ws ++ s.inputs)

/-- Places one transaction word where the next step takes its word from; a number that is no transaction word leaves nothing
to take (log 10). -/
def placeWord (s : State) (nbits w : Nat) : State :=
  match wordOfBits nbits w with
  | .ok v => s.setInputs (v :: s.inputs.tail)
  | .error _ => s.setInputs []

end Sys2Proof.Machine
end

