-- ==== Sys2Proof/Machine/FrameBytes.lean ====
section
/-! DEFINITION. The ten frame byte micro-operations (41_frame_bytes R120 to R129). -/

namespace Sys2Proof.Machine

/-- BYTE.MAGIC0: starts the header match and marks the previous result as not current (R120). -/
def execByteMagic0 (b : Byte) (s : State) : Host.Outcome State Fault Refusal :=
  acceptAt 0#4 (fun s => (s.setHdrOk (hdrAfterMagic0 b)).setResValid false) s

/-- BYTE.MAGIC1 (R121). -/
def execByteMagic1 (b : Byte) (s : State) : Host.Outcome State Fault Refusal :=
  acceptAt 1#4 (fun s => s.setHdrOk (hdrAfterMagic1 s.hdrOk b)) s

/-- BYTE.P25L: the sum restarts with the first payload byte (R122). -/
def execByteP25l (b : Byte) (s : State) : Host.Outcome State Fault Refusal :=
  acceptAt 2#4 (fun s => (s.setAcc b).setF25 (setLowByte s.f25 b)) s

/-- BYTE.P25H (R123). -/
def execByteP25h (b : Byte) (s : State) : Host.Outcome State Fault Refusal :=
  acceptAt 3#4 (fun s => (s.setAcc (add8 s.acc b)).setF25 (setHighByte s.f25 b)) s

/-- BYTE.P10L (R124). -/
def execByteP10l (b : Byte) (s : State) : Host.Outcome State Fault Refusal :=
  acceptAt 4#4 (fun s => (s.setAcc (add8 s.acc b)).setF10 (setLowByte s.f10 b)) s

/-- BYTE.P10H (R125). -/
def execByteP10h (b : Byte) (s : State) : Host.Outcome State Fault Refusal :=
  acceptAt 5#4 (fun s => (s.setAcc (add8 s.acc b)).setF10 (setHighByte s.f10 b)) s

/-- BYTE.RSV0: summed, then discarded (R126). -/
def execByteRsv0 (b : Byte) (s : State) : Host.Outcome State Fault Refusal :=
  acceptAt 6#4 (fun s => s.setAcc (add8 s.acc b)) s

/-- BYTE.RSV1: summed, then discarded (R127). -/
def execByteRsv1 (b : Byte) (s : State) : Host.Outcome State Fault Refusal :=
  acceptAt 7#4 (fun s => s.setAcc (add8 s.acc b)) s

/-- BYTE.CKSUM: a mismatch is not reported here (R128). -/
def execByteCksum (b : Byte) (s : State) : Host.Outcome State Fault Refusal :=
  acceptAt 8#4 (fun s => s.setCkOk (checksumMatches s.acc b)) s

/-- BYTE.TAIL: the tail check and the completion of the frame (R129). -/
def execByteTail (b : Byte) (s : State) : Host.Outcome State Fault Refusal :=
  acceptAt 9#4 (completeFrame (tailMatches b)) s

end Sys2Proof.Machine
end

