-- ==== Sys2Proof/Machine/Transactions.lean ====
section
/-! DEFINITION. The meanings of RESET, IDLE and BYTE.REFUSED (40_transactions R100, R101, R105). -/

namespace Sys2Proof.Machine

/-- RESET: legal in every state (40_transactions R100). -/
def execReset (s : State) : Host.Outcome State Fault Refusal := .next (resetRegisters s)

/-- IDLE: no register changes, legal in every state (40_transactions R101). -/
def execIdle (s : State) : Host.Outcome State Fault Refusal := .next (passStep s)

/-- BYTE.REFUSED: the byte is not accepted and no register changes (40_transactions R105). -/
def execByteRefused (_b : Byte) (s : State) : Host.Outcome State Fault Refusal := refuseByte s

end Sys2Proof.Machine
end

