-- ==== Sys2Proof/Machine/Dispatch.lean ====
section
/-! DEFINITION. The meaning of each instruction, one arm per constructor. -/

namespace Sys2Proof.Machine

def exec (i : Instr) (s : State) : Host.Outcome State Fault Refusal :=
  match i with
  | .reset => Sys2Proof.Machine.execReset s
  | .idle => Sys2Proof.Machine.execIdle s
  | .byteRefused b => Sys2Proof.Machine.execByteRefused b s
  | .byteMagic0 b => Sys2Proof.Machine.execByteMagic0 b s
  | .byteMagic1 b => Sys2Proof.Machine.execByteMagic1 b s
  | .byteP25l b => Sys2Proof.Machine.execByteP25l b s
  | .byteP25h b => Sys2Proof.Machine.execByteP25h b s
  | .byteP10l b => Sys2Proof.Machine.execByteP10l b s
  | .byteP10h b => Sys2Proof.Machine.execByteP10h b s
  | .byteRsv0 b => Sys2Proof.Machine.execByteRsv0 b s
  | .byteRsv1 b => Sys2Proof.Machine.execByteRsv1 b s
  | .byteCksum b => Sys2Proof.Machine.execByteCksum b s
  | .byteTail b => Sys2Proof.Machine.execByteTail b s

end Sys2Proof.Machine
end

