-- ==== Sys2Proof/Machine/Step.lean ====
section
/-! DEFINITION. One step of the block: take one input vector, select the row, execute it (00_scope R9, 40_transactions R102). -/

namespace Sys2Proof.Machine

/-- One step. The word is taken whether or not a byte of it is accepted (20_memory R56); the row is selected from the
pre-step registers (30_encoding R73); with no word offered the run is over (70_reset_and_hazards R229; log 1). -/
def step (s : State) : Host.Outcome State Fault Refusal :=
  match takeWord s with
  | none => .refused .endOfRun
  | some (w, s') =>
    match select s' w with
    | .instr i => exec i s'
    | .notReset => .fault .notReset
    | .unreachableIdx => .refused .unreachableIdx

/-- `s` with that word next at the input ports (log 2: it stands for the host's offer). -/
def State.withFetchWord (s : State) (nbits w : Nat) : State := placeWord s nbits w

end Sys2Proof.Machine
end

