-- ==== Sys2Proof/Machine/Scaler.lean ====
section
/-! DEFINITION. The measurement unit scaler `SCALE` (42_validation_and_scaling R160), the value an IEEE 754 bit pattern stands
for (R161), and the exact decimal view (R163). -/

namespace Sys2Proof.Machine

/-- The integer nearest to `n / d`, ties to even. -/
def roundDivEven (n d : Nat) : Nat :=
  let q := n / d
  let r := n % d
  if 2 * r < d then q
  else if d < 2 * r then q + 1
  else if q % 2 = 0 then q
  else q + 1

/-- The binade of `raw / 10` for `raw > 0`, offset by 4: `2^(k-4) ≤ raw / 10 < 2^(k-3)` for this `k`, which is 0 for
`SCALE(1)` (about 0.1) and 16 for `SCALE(65535)` (6553.5). -/
def scaleBinade (raw : Nat) : Nat := Nat.log2 (16 * raw / scaleDiv)

/-- The significand of `raw / 10` as an integer of `fracBits + 1` bits: the one rounding, to nearest with ties to even
(R160). It is `2^(fracBits + 1)` when it rounds up to the next binade. -/
def scaleSignificand (fmt : FloatFmt) (raw : Nat) : Nat :=
  roundDivEven (raw * 2 ^ (fmt.fracBits + 4 - scaleBinade raw)) scaleDiv

/-- `SCALE(raw)` as a number: sign 0, the biased exponent, the fraction (R160, R161). The leading bit of the significand is
taken off, and a significand that rounded up to the next binade carries into the exponent. -/
def scaleNat (fmt : FloatFmt) (raw : Nat) : Nat :=
  if raw = 0 then 0
  else (scaleBinade raw + fmt.bias - 4) * 2 ^ fmt.fracBits + (scaleSignificand fmt raw - 2 ^ fmt.fracBits)

/-- `SCALE(raw)`, FW bits (42_validation_and_scaling R160). -/
def scale (fmt : FloatFmt) (raw : Half) : BitVec fmt.width := BitVec.ofNat fmt.width (scaleNat fmt raw.toNat)

/-! What a bit pattern stands for (R161; IEEE 754 itself is taken from outside the spec's source: PRESUMED, log 8). -/

/-- The sign bit, bit FW-1. -/
def floatSign (fmt : FloatFmt) (x : BitVec fmt.width) : Bool := x.msb

/-- The biased exponent field. -/
def floatExp (fmt : FloatFmt) (x : BitVec fmt.width) : Nat := x.toNat / 2 ^ fmt.fracBits % 2 ^ fmt.expBits

/-- The fraction field. -/
def floatFrac (fmt : FloatFmt) (x : BitVec fmt.width) : Nat := x.toNat % 2 ^ fmt.fracBits

/-- Not an infinity and not a NaN: the exponent field is not all ones. -/
def floatFinite (fmt : FloatFmt) (x : BitVec fmt.width) : Bool := floatExp fmt x != 2 ^ fmt.expBits - 1

/-- The magnitude of a finite pattern: a subnormal (exponent field 0) has no leading bit. -/
def floatMagnitude (fmt : FloatFmt) (x : BitVec fmt.width) : Rat :=
  if floatExp fmt x = 0 then (floatFrac fmt x : Rat) * 2 / 2 ^ (fmt.bias + fmt.fracBits)
  else ((2 ^ fmt.fracBits + floatFrac fmt x : Nat) : Rat) * 2 ^ floatExp fmt x / 2 ^ (fmt.bias + fmt.fracBits)

/-- The number a finite pattern stands for. -/
def floatValue (fmt : FloatFmt) (x : BitVec fmt.width) : Rat :=
  if floatSign fmt x then -floatMagnitude fmt x else floatMagnitude fmt x

/-! The exact decimal view (R163). -/

/-- The integer part of the decimal, `raw div 10`. -/
def wholeUnits (raw : Half) : Nat := raw.toNat / scaleDiv

/-- The tenths digit, `raw mod 10`. -/
def tenthsDigit (raw : Half) : Nat := raw.toNat % scaleDiv

end Sys2Proof.Machine
end

