-- ==== Sys2Proof/Machine/Frame.lean ====
section
/-! DEFINITION. The frame-level functions that describe the machine (42_validation_and_scaling): the magic check, the checksum,
the unpacker, the reference function `Decode`, and the transaction words that carry frames. They are not steps. -/

namespace Sys2Proof.Machine

/-- A frame `B[0..9]` of format F (30_encoding R75). -/
abbrev Frame := Vector Byte frameLen

/-- `MagicOK(B)` (42_validation_and_scaling R150). -/
def magicOK (B : Frame) : Bool := B[0] == magic0 && B[1] == magic1 && B[9] == tailMagic

/-- `Sum8(B)`, the sum mod 256 of bytes CK_FIRST to CK_LAST (R151). -/
def sum8 (B : Frame) : Byte := ((B.toList.drop ckFirst).take (ckLast + 1 - ckFirst)).foldl add8 0x00#8

/-- `CkOK(B)` (R151). -/
def ckOK (B : Frame) : Bool := B[ckPos] == sum8 B

/-- `PM25_RAW(B)` (R152). -/
def framePm25Raw (B : Frame) : Half := u16 B[pm25Lo] B[pm25Hi]

/-- `PM10_RAW(B)` (R152). -/
def framePm10Raw (B : Frame) : Half := u16 B[pm10Lo] B[pm10Hi]

/-- What `Decode` answers (R170): a frame error, or a measurement with the raw fields and their scaled values. The timestamp
and the comment are the host's (decision D14). -/
inductive FrameOutcome (fmt : FloatFmt) where
  | invalidHeader
  | checksumMismatch
  | measurement (pm25Raw pm10Raw : Half) (pm25 pm10 : BitVec fmt.width)
  deriving DecidableEq, Repr

/-- `Decode(B)`, in its fixed validation order (R170). -/
def decodeFrame (fmt : FloatFmt) (B : Frame) : FrameOutcome fmt :=
  if !magicOK B then .invalidHeader
  else if !ckOK B then .checksumMismatch
  else .measurement (framePm25Raw B) (framePm10Raw B) (scale fmt (framePm25Raw B)) (scale fmt (framePm10Raw B))

/-- `code(Decode(B))`: OK = 1, InvalidHeader = 2, ChecksumMismatch = 3 (R171). -/
def outcomeCode {fmt : FloatFmt} : FrameOutcome fmt → BitVec 2
  | .measurement _ _ _ _ => 1#2
  | .invalidHeader => 2#2
  | .checksumMismatch => 3#2

/-- Whether the outcome is a measurement. -/
def outcomeIsOk {fmt : FloatFmt} : FrameOutcome fmt → Bool
  | .measurement _ _ _ _ => true
  | .invalidHeader => false
  | .checksumMismatch => false

/-- The BYTE words that offer the bytes of a frame in order (30_encoding R82, `frame`). -/
def frameWords (B : Frame) : List Word := B.toList.map byteWord

/-- The bytes a list of transaction words offers, in order: those of its BYTE words (30_encoding R71). -/
def offeredBytes : List Word → List Byte
  | [] => []
  | w :: ws =>
    match decodeT w with
    | .byte b => b :: offeredBytes ws
    | .reset => offeredBytes ws
    | .idle => offeredBytes ws

/-- No word of the list is a RESET. -/
def noReset (ws : List Word) : Bool := ws.all (fun w => !fieldR w)

end Sys2Proof.Machine
end

