-- ==== Sys2Proof/Machine/Outputs.lean ====
section
/-! DEFINITION. The output ports (10_state R22, R23, R36, R37) and the operating mode (60_exceptions R199). Each is a function of
the state alone (Moore) and reads without a side effect (20_memory R56). Before the first RESET every output is a draw, drawn
anew at each step (R22, R38; log 17). -/

namespace Sys2Proof.Machine

/-- The port `in_ready`: `¬halted` once `rst_seen = 1` (R37). -/
def outInReady (s : State) : Bool := if s.rstSeen then !s.halted else Config.drawInReady s.draws

/-- The packed word `{BYTE_POS[7:4], HALTED[3], RES_VALID[2], STATUS[1:0]}` (R23). -/
def packStat (s : State) : BitVec 8 :=
  s.idx ++ (BitVec.ofBool s.halted ++ (BitVec.ofBool s.resValid ++ statusCode s.status : BitVec 3) : BitVec 4)

/-- The port `stat`, the block's one status register, read-only (R23). -/
def outStat (s : State) : BitVec 8 := if s.rstSeen then packStat s else Config.drawStat s.draws

/-- The port `pm25_raw` (R34). -/
def outPm25Raw (s : State) : Half := if s.rstSeen then s.pm25Raw else Config.drawPm25Raw s.draws

/-- The port `pm10_raw` (R35). -/
def outPm10Raw (s : State) : Half := if s.rstSeen then s.pm10Raw else Config.drawPm10Raw s.draws

/-- The port `pm25_f`, combinational (R36). -/
def outPm25F (fmt : FloatFmt) (s : State) : BitVec fmt.width :=
  if s.rstSeen then scale fmt s.pm25Raw else Config.drawPm25F fmt s.draws

/-- The port `pm10_f`, combinational (R36). -/
def outPm10F (fmt : FloatFmt) (s : State) : BitVec fmt.width :=
  if s.rstSeen then scale fmt s.pm10Raw else Config.drawPm10F fmt s.draws

/-! Fields of a status word (R23). -/

/-- STATUS, `stat[1:0]`. -/
def statStatus (v : BitVec 8) : BitVec 2 := v.extractLsb' 0 2

/-- RES_VALID, `stat[2]`. -/
def statResValid (v : BitVec 8) : Bool := v.getLsbD 2

/-- HALTED, `stat[3]`. -/
def statHalted (v : BitVec 8) : Bool := v.getLsbD 3

/-- BYTE_POS, `stat[7:4]`. -/
def statBytePos (v : BitVec 8) : Pos := v.extractLsb' 4 4

/-- The two operating modes (60_exceptions R199). -/
inductive Mode where
  | run
  | halted
  deriving DecidableEq, Repr

/-- The operating mode, read from `halted` (60_exceptions R199). -/
def mode (s : State) : Mode := if s.halted then .halted else .run

end Sys2Proof.Machine
end

