-- ==== Sys2Proof/Machine/Stimulus.lean ====
section
/-! DEFINITION. The stimulus syntax (30_encoding R81, R82): its statements, the transaction words each stands for, what the
transcriber refuses, and the reading of a program text. It is the host's way to write transaction words; no step uses it. -/

namespace Sys2Proof.Machine

/-- A statement of R81 or a pseudo-statement of R82, its literals as numbers. -/
inductive Stmt where
  | reset
  | idle
  | byte (n : Nat)
  | idleTimes (k : Nat)
  | frame (bs : List Nat)
  | good (p25 p10 r6 r7 : Nat)
  deriving DecidableEq, Repr

/-- Why the transcriber refuses (R81, R82). -/
inductive StimulusError where
  /-- A byte literal outside 0..255. -/
  | byteLiteral
  /-- `idle 0`. -/
  | idleCount
  /-- `frame` without exactly ten byte literals. -/
  | frameLiterals
  /-- `good` with a field outside 0..65535 or a reserved byte outside 0..255. -/
  | goodLiterals
  /-- A line that is no statement. -/
  | notAStatement
  deriving DecidableEq, Repr

/-- The words of `byte n` (R81). -/
def literalWord (n : Nat) : Word := byteWord (BitVec.ofNat 8 n)

/-- The ten literals `good p25, p10, r6, r7` expands to (R82). -/
def goodLiterals (p25 p10 r6 r7 : Nat) : List Nat :=
  [0xAA, 0xC0, p25 % 256, p25 / 256, p10 % 256, p10 / 256, r6, r7,
    (p25 % 256 + p25 / 256 + p10 % 256 + p10 / 256 + r6 + r7) % 256, 0xAB]

/-- The transaction words a statement stands for (R81, R82). -/
def stmtWords : Stmt → Except StimulusError (List Word)
  | .reset => .ok [0x200#10]
  | .idle => .ok [0x000#10]
  | .byte n => if byteLiteralOk n then .ok [literalWord n] else .error .byteLiteral
  | .idleTimes k => if idleCountOk k then .ok (List.replicate k 0x000#10) else .error .idleCount
  | .frame bs => if frameLiteralsOk bs then .ok (bs.map literalWord) else .error .frameLiterals
  | .good p25 p10 r6 r7 =>
    if rawLiteralOk p25 && rawLiteralOk p10 && byteLiteralOk r6 && byteLiteralOk r7 then
      .ok ((goodLiterals p25 p10 r6 r7).map literalWord)
    else .error .goodLiterals

/-- The words of a program, statement after statement; the first refusal refuses the program. -/
def programWords : List Stmt → Except StimulusError (List Word)
  | [] => .ok []
  | p :: ps =>
    match stmtWords p, programWords ps with
    | .ok ws, .ok vs => .ok (ws ++ vs)
    | .error e, _ => .error e
    | .ok _, .error e => .error e

/-! Reading a text: one statement a line, `;` starts a comment, a literal is decimal or `0x` and two hexadecimal digits (R81).
DESIGN CHOICE (log 13): blanks may stand around words and commas, and a hexadecimal digit may be a capital or a small letter. -/

/-- A blank inside a line. -/
def isBlank (c : Char) : Bool := c == ' ' || c == '\t' || c == '\r'

/-- Without the blanks at both ends. -/
def trimBlanks (cs : List Char) : List Char := ((cs.dropWhile isBlank).reverse.dropWhile isBlank).reverse

/-- The pieces of `cs` between the characters `sep`. -/
def splitOnChar (sep : Char) : List Char → List (List Char)
  | [] => [[]]
  | c :: cs =>
    if c == sep then [] :: splitOnChar sep cs
    else
      match splitOnChar sep cs with
      | [] => [[c]]
      | p :: ps => (c :: p) :: ps

/-- The value of a decimal digit. -/
def decDigit? (c : Char) : Option Nat :=
  if '0'.toNat ≤ c.toNat ∧ c.toNat ≤ '9'.toNat then some (c.toNat - '0'.toNat) else none

/-- The value of a hexadecimal digit. -/
def hexDigit? (c : Char) : Option Nat :=
  if 'A'.toNat ≤ c.toNat ∧ c.toNat ≤ 'F'.toNat then some (c.toNat - 'A'.toNat + 10)
  else if 'a'.toNat ≤ c.toNat ∧ c.toNat ≤ 'f'.toNat then some (c.toNat - 'a'.toNat + 10)
  else decDigit? c

/-- The number decimal digits stand for, after `acc`. -/
def readDecimal (acc : Nat) : List Char → Option Nat
  | [] => some acc
  | c :: cs =>
    match decDigit? c with
    | some d => readDecimal (10 * acc + d) cs
    | none => none

/-- The number a literal stands for (R81). -/
def readLiteral (cs : List Char) : Option Nat :=
  match cs with
  | [] => none
  | ['0', 'x', h, l] =>
    match hexDigit? h, hexDigit? l with
    | some a, some b => some (16 * a + b)
    | _, _ => none
  | _ => readDecimal 0 cs

/-- Every piece as a literal, or none if one is no literal. -/
def readLiterals : List (List Char) → Option (List Nat)
  | [] => some []
  | p :: ps =>
    match readLiteral (trimBlanks p), readLiterals ps with
    | some n, some ns => some (n :: ns)
    | _, _ => none

/-- The operands of a statement: the comma-separated literals of the text after its keyword. -/
def readOperands (cs : List Char) : Option (List Nat) :=
  if (trimBlanks cs).isEmpty then some [] else readLiterals (splitOnChar ',' cs)

/-- The keywords of R81 and R82. -/
inductive Keyword where
  | reset
  | idle
  | byte
  | frame
  | good
  deriving DecidableEq, Repr

/-- The keyword a word is. -/
def readKeyword (cs : List Char) : Option Keyword :=
  if cs = ['r', 'e', 's', 'e', 't'] then some .reset
  else if cs = ['i', 'd', 'l', 'e'] then some .idle
  else if cs = ['b', 'y', 't', 'e'] then some .byte
  else if cs = ['f', 'r', 'a', 'm', 'e'] then some .frame
  else if cs = ['g', 'o', 'o', 'd'] then some .good
  else none

/-- The statement a keyword makes with these operands (R81, R82); `r6` and `r7` of `good` default to 0. -/
def makeStmt (k : Keyword) (ns : List Nat) : Option Stmt :=
  match k, ns with
  | .reset, [] => some .reset
  | .idle, [] => some .idle
  | .idle, [n] => some (.idleTimes n)
  | .byte, [n] => some (.byte n)
  | .frame, bs => some (.frame bs)
  | .good, [p25, p10] => some (.good p25 p10 0 0)
  | .good, [p25, p10, r6, r7] => some (.good p25 p10 r6 r7)
  | _, _ => none

/-- The statement of a line without its comment, none for an empty line; a line that is no statement is refused. -/
def readLine (cs : List Char) : Except StimulusError (Option Stmt) :=
  let body := trimBlanks (cs.takeWhile (fun c => c != ';'))
  if body.isEmpty then .ok none
  else
    let word := body.takeWhile (fun c => !isBlank c)
    let rest := body.dropWhile (fun c => !isBlank c)
    match readKeyword word, readOperands rest with
    | some k, some ns =>
      match makeStmt k ns with
      | some p => .ok (some p)
      | none => .error .notAStatement
    | _, _ => .error .notAStatement

/-- The statements of the lines, in order. -/
def readLines : List (List Char) → Except StimulusError (List Stmt)
  | [] => .ok []
  | l :: ls =>
    match readLine l, readLines ls with
    | .ok none, .ok ps => .ok ps
    | .ok (some p), .ok ps => .ok (p :: ps)
    | .error e, _ => .error e
    | .ok _, .error e => .error e

/-- The transaction words a program text stands for (R81, R82). -/
def transcribe (text : List Char) : Except StimulusError (List Word) :=
  match readLines (splitOnChar '\n' text) with
  | .ok ps => programWords ps
  | .error e => .error e

end Sys2Proof.Machine
end

