-- ==== Sys2Proof/Safety.lean ====
section
/-! DEFINITION. What claims are stated in: runs of the machine, the invariants of 10_state R40, and what a good run is
(70_reset_and_hazards R229). -/

namespace Sys2Proof.Machine

/-- `k` steps of the machine. -/
def runSteps (k : Nat) (s : State) : Host.Outcome State Fault Refusal := Sys2Proof.core.run k s

/-! The invariants of every state reachable from a RESET, one clause each (10_state R40). -/

/-- Clause 1: `idx ∈ 0..9`. -/
abbrev State.IdxLegal (s : State) : Prop := s.idx.toNat ≤ 9

/-- Clause 2: what `halted = 1` implies. -/
abbrev State.HaltedShows (s : State) : Prop :=
  s.halted = true →
    (s.status = .invalidHeader ∨ s.status = .checksumMismatch) ∧ s.resValid = true ∧ s.idx = 0#4 ∧
      s.pm25Raw = 0#16 ∧ s.pm10Raw = 0#16

/-- Clause 3: what `status = 0` implies. -/
abbrev State.NoneShows (s : State) : Prop :=
  s.status = .none → s.resValid = false ∧ s.halted = false ∧ s.pm25Raw = 0#16 ∧ s.pm10Raw = 0#16

/-- Clause 4: `status = 1 ⇒ halted = 0`. -/
abbrev State.OkRuns (s : State) : Prop := s.status = .ok → s.halted = false

/-- Clause 5: `res_valid = 1 ∧ halted = 0 ⇒ idx = 0 ∧ status = 1`. -/
abbrev State.ValidIsOk (s : State) : Prop :=
  s.resValid = true → s.halted = false → s.idx = 0#4 ∧ s.status = .ok

/-- Clause 6: a status other than OK goes with cleared results. -/
abbrev State.OnlyOkShowsValues (s : State) : Prop :=
  s.status ≠ .ok → s.pm25Raw = 0#16 ∧ s.pm10Raw = 0#16

/-- The six clauses of 10_state R40, in a state after a RESET. -/
abbrev State.Inv (s : State) : Prop :=
  s.rstSeen = true ∧ s.IdxLegal ∧ s.HaltedShows ∧ s.NoneShows ∧ s.OkRuns ∧ s.ValidIsOk ∧ s.OnlyOkShowsValues

/-- A run of `k` steps each of which answers a next state. The spec says only which runs are never good: "A run that contains the
fault `NotReset` or the refusal `UnreachableIdx` is never a good run" (R229). DESIGN CHOICE (log 18): every run without a stop is
good, and a run with any stop is not, so `k` is at most the number of words offered (one step more meets `endOfRun`). Safe. -/
def GoodRun (k : Nat) (s : State) : Prop := ∃ t, runSteps k s = .next t

end Sys2Proof.Machine
end

