-- ==== Sys2Proof/Certificates/Slice0/Obligations.lean ====
section
/-! DEFINITION. The statements for the provers, in the order of the spec's files. Each docstring names the rules it formalises.
The values of a statement are written from the rule's own words, not through the model's operations. -/

open Sys2Proof Sys2Proof.Machine

/-! ## Encoding and selection (30_encoding) -/

/-- R70, R71: every word is the three fields `r v bbbbbbbb`, and the transaction is RESET if `r`, else BYTE `b` if `v`, else
IDLE. -/
def Obligations.WordFieldsSelectTransaction : Prop :=
  (∀ (r v : Bool) (b : Byte),
      decodeT (BitVec.ofNat 10 (512 * r.toNat + 256 * v.toNat + b.toNat)) =
        if r then .reset else if v then .byte b else .idle) ∧
    ∀ w : Word, ∃ (r v : Bool) (b : Byte), w = BitVec.ofNat 10 (512 * r.toNat + 256 * v.toNat + b.toNat)

/-- R72: the canonical words, and that a word with the same `r` and `v` but other ignored bits means the same operation. -/
def Obligations.CanonicalWordsAndIgnoredBits : Prop :=
  encode .reset = 0x200#10 ∧ encode .idle = 0x000#10 ∧
    (∀ i b, operandByte i = some b → encode i = 0x100#10 ||| b.setWidth 10) ∧
    ∀ w w' : Word, w.getLsbD 9 = w'.getLsbD 9 → w.getLsbD 8 = w'.getLsbD 8 →
      (w.getLsbD 9 = false → w.getLsbD 8 = true → w.setWidth 8 = w'.setWidth 8) → decodeT w = decodeT w'

/-- R73: the micro-operation a BYTE word selects in each state, and the two states in which no row applies. -/
def Obligations.ByteSelectsMicroOperation : Prop :=
  ∀ (w : Word) (b : Byte), w.getLsbD 9 = false → w.getLsbD 8 = true → w.setWidth 8 = b →
    (∀ idx, decode true true idx w = .instr (.byteRefused b)) ∧
    decode true false 0#4 w = .instr (.byteMagic0 b) ∧
    decode true false 1#4 w = .instr (.byteMagic1 b) ∧
    decode true false 2#4 w = .instr (.byteP25l b) ∧
    decode true false 3#4 w = .instr (.byteP25h b) ∧
    decode true false 4#4 w = .instr (.byteP10l b) ∧
    decode true false 5#4 w = .instr (.byteP10h b) ∧
    decode true false 6#4 w = .instr (.byteRsv0 b) ∧
    decode true false 7#4 w = .instr (.byteRsv1 b) ∧
    decode true false 8#4 w = .instr (.byteCksum b) ∧
    decode true false 9#4 w = .instr (.byteTail b) ∧
    (∀ halted idx, decode false halted idx w = .notReset) ∧
    ∀ idx : Pos, 9 < idx.toNat → decode true false idx w = .unreachableIdx

/-- Decode and encode agree for every row: in every state that meets the row's guard, the decoder reads from the row's canonical
word that row with that byte (30_encoding section 1, opcode_table.json). -/
def Obligations.DecodeOfEncodeUnderGuard : Prop :=
  ∀ (i : Instr) (rstSeen halted : Bool) (idx : Pos), i.wf = true → tableGuard rstSeen halted idx i = true →
    decode rstSeen halted idx (encode i) = .instr i

/-- The decoder is the opcode table: it answers a row exactly when the row's guard holds in the state, the word has the row's
fixed bits, and the row's operand is the word's field `b`; so no word has two rows in one state. -/
def Obligations.DecoderIsOpcodeTable : Prop :=
  ∀ (w : Word) (i : Instr) (rstSeen halted : Bool) (idx : Pos),
    decode rstSeen halted idx w = .instr i ↔
      tableGuard rstSeen halted idx i = true ∧ w &&& tableMask i = tableMatch i ∧
        ∀ b, operandByte i = some b → w.setWidth 8 = b

/-- A few words written out from 30_encoding R70 to R73 decode to the transactions and rows they stand for (and, the model's
own choices of logs 9 and 10, what `decodeTableWord` answers for three numbers). -/
def Obligations.WrittenOutWordsDecode : Prop :=
  decodeT 0b1000000000#10 = .reset ∧ decodeT 0b1111111111#10 = .reset ∧ decodeT 0b0010101011#10 = .idle ∧
    decodeT 0b0110101010#10 = .byte 0xAA#8 ∧
    decode true false 0#4 0b0110101010#10 = .instr (.byteMagic0 0xAA#8) ∧
    decode true false 3#4 0b0100000100#10 = .instr (.byteP25h 0x04#8) ∧
    decode true false 8#4 0b0100011111#10 = .instr (.byteCksum 31#8) ∧
    decode true false 9#4 0b0110101011#10 = .instr (.byteTail 0xAB#8) ∧
    decode true true 0#4 0b0110101011#10 = .instr (.byteRefused 0xAB#8) ∧
    decodeTableWord 16 0x200 = some .reset ∧ decodeTableWord 16 0x1AA = some (.byteMagic0 0xAA#8) ∧
    decodeTableWord 16 0x400 = none

/-! ## The step (00_scope R9, 40_transactions R102) -/

/-- A step takes the next word offered, selects the row from the pre-step registers, and executes it with that word consumed;
a word that selects no row stops by name, and with no word offered the run is over (logs 1, 2). -/
def Obligations.StepRunsDecodedInstruction : Prop :=
  (∀ (s : State) (w : Word) (rest : List Word), s.inputs = w :: rest →
      (∀ i : Instr, i.wf = true → decode s.rstSeen s.halted s.idx w = .instr i →
          step s = exec i { s with inputs := rest }) ∧
      (decode s.rstSeen s.halted s.idx w = .notReset → step s = .fault .notReset) ∧
      (decode s.rstSeen s.halted s.idx w = .unreachableIdx → step s = .refused .unreachableIdx)) ∧
    ∀ s : State, s.inputs = [] → step s = .refused .endOfRun

/-- A step faults exactly on a BYTE before the first RESET, and the fault is NotReset (10_state R38). -/
def Obligations.StepFaultsExactlyOnByteBeforeReset : Prop :=
  ∀ (s : State) (f : Fault),
    step s = .fault f ↔
      f = .notReset ∧ s.rstSeen = false ∧
        ∃ w rest, s.inputs = w :: rest ∧ w.getLsbD 9 = false ∧ w.getLsbD 8 = true

/-- A step is refused exactly at the end of the words offered (log 1), or on a BYTE at a position 10..15 after reset
(30_encoding R73); never because a row was executed in a state that does not select it. -/
def Obligations.StepRefusesExactlyAtEndOrUnreachableIdx : Prop :=
  ∀ (s : State) (r : Refusal),
    step s = .refused r ↔
      (r = .endOfRun ∧ s.inputs = []) ∨
        (r = .unreachableIdx ∧ s.rstSeen = true ∧ s.halted = false ∧ 9 < s.idx.toNat ∧
          ∃ w rest, s.inputs = w :: rest ∧ w.getLsbD 9 = false ∧ w.getLsbD 8 = true)

/-- Every one of the 1024 words has an effect in every state that meets the invariants of 10_state R40: no word makes the block
fault or stop (30_encoding R79, 60_exceptions R199). -/
def Obligations.EveryWordRunsAfterReset : Prop :=
  ∀ (s : State) (w : Word) (rest : List Word), s.Inv → s.inputs = w :: rest →
    ∃ t, step s = .next t ∧ t.inputs = rest

/-- A row completes exactly in the states that meet its guard in the opcode table (for RESET and IDLE: in every state). That it
completes there is the spec's (opcode_table.json, 40_transactions section 1); that it does not complete where 30_encoding R73
selects another row is the model's own DESIGN CHOICE of log 11. -/
def Obligations.RowCompletesExactlyUnderGuard : Prop :=
  ∀ (i : Instr) (s : State),
    (∃ t, exec i s = .next t) ↔ tableGuard s.rstSeen s.halted s.idx i = true

/-- Where a BYTE row does not complete it stops by name, in the order of 40_transactions R102: before the first RESET with the
fault NotReset, at a position 10..15 with the refusal UnreachableIdx, else, where R73 selects another row, with notSelected
(log 11). -/
def Obligations.ByteRowStopsOutsideGuard : Prop :=
  ∀ (i : Instr) (b : Byte) (s : State), operandByte i = some b →
    tableGuard s.rstSeen s.halted s.idx i = false →
    exec i s =
      if s.rstSeen = false then .fault .notReset
      else if s.halted = false ∧ 9 < s.idx.toNat then .refused .unreachableIdx
      else .refused .notSelected

/-! ## RESET, IDLE, BYTE.REFUSED (40_transactions) -/

/-- R100, R195: RESET, in every state and whatever the word's other bits, writes every register; nothing else changes. -/
def Obligations.ResetWritesEveryRegister : Prop :=
  ∀ s : State,
    exec .reset s =
      .next { s with
        rstSeen := true, idx := 0#4, halted := false, hdrOk := false, acc := 0x00#8, ckOk := false, f25 := 0x0000#16,
        f10 := 0x0000#16, resValid := false, status := .none, pm25Raw := 0x0000#16, pm10Raw := 0x0000#16 } ∧
    ∀ (w : Word) (rest : List Word), w.getLsbD 9 = true →
      step { s with inputs := w :: rest } =
        .next { s with
          rstSeen := true, idx := 0#4, halted := false, hdrOk := false, acc := 0x00#8, ckOk := false, f25 := 0x0000#16,
          f10 := 0x0000#16, resValid := false, status := .none, pm25Raw := 0x0000#16, pm10Raw := 0x0000#16,
          inputs := rest }

/-- IDLE changes no register in any state, whatever `in_byte` is (R101); after a RESET it changes nothing at all. Before the first
RESET, that the unspecified registers are kept is the model's choice (DEDUCED, log 5), and the counter `draws` that may move is
the model's own (logs 6, 17). -/
def Obligations.IdleChangesNoRegister : Prop :=
  ∀ s : State,
    (∃ n, exec .idle s = .next { s with draws := n }) ∧
    (s.rstSeen = true → exec .idle s = .next s) ∧
    ∀ (w : Word) (rest : List Word), w.getLsbD 9 = false → w.getLsbD 8 = false →
      ∃ n, step { s with inputs := w :: rest } = .next { s with inputs := rest, draws := n }

/-- R105: a byte offered while halted changes no register, is not accepted, and sees `in_ready = 0`. -/
def Obligations.RefusedByteChangesNothing : Prop :=
  ∀ (s : State) (b : Byte) (rest : List Word), s.rstSeen = true → s.halted = true →
    exec (.byteRefused b) s = .next s ∧
    step { s with inputs := (0x100#10 ||| b.setWidth 10) :: rest } = .next { s with inputs := rest } ∧
    accepts s (0x100#10 ||| b.setWidth 10) = false ∧ outInReady s = false

/-- R103: a byte is accepted exactly when `rst = 0 ∧ in_valid = 1 ∧ rst_seen = 1 ∧ halted = 0` before the step, which after a
RESET is `in_valid ∧ in_ready` with `rst = 0`. -/
def Obligations.AcceptanceCondition : Prop :=
  ∀ (s : State) (w : Word),
    (accepts s w = true ↔
      w.getLsbD 9 = false ∧ w.getLsbD 8 = true ∧ s.rstSeen = true ∧ s.halted = false) ∧
    (s.rstSeen = true →
      (accepts s w = true ↔ w.getLsbD 9 = false ∧ w.getLsbD 8 = true ∧ outInReady s = true))

/-- R104: every accepted byte advances the position, whatever its value; RESET sets it to 0; no other step moves it. -/
def Obligations.PositionSequencing : Prop :=
  ∀ (s t : State) (w : Word) (rest : List Word), s.inputs = w :: rest → step s = .next t →
    (w.getLsbD 9 = false ∧ w.getLsbD 8 = true ∧ s.rstSeen = true ∧ s.halted = false →
      s.idx.toNat ≤ 9 ∧ t.idx = if s.idx = 9#4 then 0#4 else s.idx + 1#4) ∧
    (w.getLsbD 9 = true → t.idx = 0#4) ∧
    (w.getLsbD 9 = false → ¬(w.getLsbD 8 = true ∧ s.rstSeen = true ∧ s.halted = false) → t.idx = s.idx)

/-! ## The frame byte micro-operations (41_frame_bytes) -/

/-- R120: BYTE.MAGIC0 at position 0. -/
def Obligations.Magic0StartsHeaderMatch : Prop :=
  ∀ (s : State) (b : Byte) (rest : List Word), s.rstSeen = true → s.halted = false → s.idx = 0#4 →
    exec (.byteMagic0 b) s = .next { s with hdrOk := decide (b = 0xAA#8), resValid := false, idx := 1#4 } ∧
    step { s with inputs := (0x100#10 ||| b.setWidth 10) :: rest } =
      .next { s with hdrOk := decide (b = 0xAA#8), resValid := false, idx := 1#4, inputs := rest }

/-- R121: BYTE.MAGIC1 at position 1. -/
def Obligations.Magic1ContinuesHeaderMatch : Prop :=
  ∀ (s : State) (b : Byte) (rest : List Word), s.rstSeen = true → s.halted = false → s.idx = 1#4 →
    exec (.byteMagic1 b) s = .next { s with hdrOk := s.hdrOk && decide (b = 0xC0#8), idx := 2#4 } ∧
    step { s with inputs := (0x100#10 ||| b.setWidth 10) :: rest } =
      .next { s with hdrOk := s.hdrOk && decide (b = 0xC0#8), idx := 2#4, inputs := rest }

/-- R122: BYTE.P25L at position 2: the sum restarts, `f25[7:0]` takes the byte and `f25[15:8]` keeps its value. -/
def Obligations.P25lRestartsSumAndFillsLowByte : Prop :=
  ∀ (s : State) (b : Byte) (rest : List Word), s.rstSeen = true → s.halted = false → s.idx = 2#4 →
    exec (.byteP25l b) s = .next { s with acc := b, f25 := s.f25.extractLsb' 8 8 ++ b, idx := 3#4 } ∧
    step { s with inputs := (0x100#10 ||| b.setWidth 10) :: rest } =
      .next { s with acc := b, f25 := s.f25.extractLsb' 8 8 ++ b, idx := 3#4, inputs := rest }

/-- R123: BYTE.P25H at position 3: the byte is added mod 256, `f25[15:8]` takes it and `f25[7:0]` keeps its value. -/
def Obligations.P25hAddsAndFillsHighByte : Prop :=
  ∀ (s : State) (b : Byte) (rest : List Word), s.rstSeen = true → s.halted = false → s.idx = 3#4 →
    exec (.byteP25h b) s =
      .next { s with
        acc := BitVec.ofNat 8 ((s.acc.toNat + b.toNat) % 256), f25 := b ++ s.f25.extractLsb' 0 8, idx := 4#4 } ∧
    step { s with inputs := (0x100#10 ||| b.setWidth 10) :: rest } =
      .next { s with
        acc := BitVec.ofNat 8 ((s.acc.toNat + b.toNat) % 256), f25 := b ++ s.f25.extractLsb' 0 8, idx := 4#4,
        inputs := rest }

/-- R124: BYTE.P10L at position 4. -/
def Obligations.P10lAddsAndFillsLowByte : Prop :=
  ∀ (s : State) (b : Byte) (rest : List Word), s.rstSeen = true → s.halted = false → s.idx = 4#4 →
    exec (.byteP10l b) s =
      .next { s with
        acc := BitVec.ofNat 8 ((s.acc.toNat + b.toNat) % 256), f10 := s.f10.extractLsb' 8 8 ++ b, idx := 5#4 } ∧
    step { s with inputs := (0x100#10 ||| b.setWidth 10) :: rest } =
      .next { s with
        acc := BitVec.ofNat 8 ((s.acc.toNat + b.toNat) % 256), f10 := s.f10.extractLsb' 8 8 ++ b, idx := 5#4,
        inputs := rest }

/-- R125: BYTE.P10H at position 5. -/
def Obligations.P10hAddsAndFillsHighByte : Prop :=
  ∀ (s : State) (b : Byte) (rest : List Word), s.rstSeen = true → s.halted = false → s.idx = 5#4 →
    exec (.byteP10h b) s =
      .next { s with
        acc := BitVec.ofNat 8 ((s.acc.toNat + b.toNat) % 256), f10 := b ++ s.f10.extractLsb' 0 8, idx := 6#4 } ∧
    step { s with inputs := (0x100#10 ||| b.setWidth 10) :: rest } =
      .next { s with
        acc := BitVec.ofNat 8 ((s.acc.toNat + b.toNat) % 256), f10 := b ++ s.f10.extractLsb' 0 8, idx := 6#4,
        inputs := rest }

/-- R126, R127, R78: the reserved bytes at positions 6 and 7 enter the sum, whatever their value, and change nothing else. -/
def Obligations.ReservedBytesOnlySummed : Prop :=
  (∀ (s : State) (b : Byte) (rest : List Word), s.rstSeen = true → s.halted = false → s.idx = 6#4 →
    exec (.byteRsv0 b) s =
      .next { s with acc := BitVec.ofNat 8 ((s.acc.toNat + b.toNat) % 256), idx := 7#4 } ∧
    step { s with inputs := (0x100#10 ||| b.setWidth 10) :: rest } =
      .next { s with acc := BitVec.ofNat 8 ((s.acc.toNat + b.toNat) % 256), idx := 7#4, inputs := rest }) ∧
  ∀ (s : State) (b : Byte) (rest : List Word), s.rstSeen = true → s.halted = false → s.idx = 7#4 →
    exec (.byteRsv1 b) s =
      .next { s with acc := BitVec.ofNat 8 ((s.acc.toNat + b.toNat) % 256), idx := 8#4 } ∧
    step { s with inputs := (0x100#10 ||| b.setWidth 10) :: rest } =
      .next { s with acc := BitVec.ofNat 8 ((s.acc.toNat + b.toNat) % 256), idx := 8#4, inputs := rest }

/-- R128: BYTE.CKSUM at position 8 compares the byte with the accumulator and reports nothing yet. -/
def Obligations.CksumComparesWithAccumulator : Prop :=
  ∀ (s : State) (b : Byte) (rest : List Word), s.rstSeen = true → s.halted = false → s.idx = 8#4 →
    exec (.byteCksum b) s = .next { s with ckOk := decide (b = s.acc), idx := 9#4 } ∧
    step { s with inputs := (0x100#10 ||| b.setWidth 10) :: rest } =
      .next { s with ckOk := decide (b = s.acc), idx := 9#4, inputs := rest }

/-- R129, R193, R194: BYTE.TAIL at position 9, its three completions; a header or tail failure wins over the checksum. -/
def Obligations.TailCompletesFrame : Prop :=
  ∀ (s : State) (b : Byte) (rest : List Word), s.rstSeen = true → s.halted = false → s.idx = 9#4 →
    (¬(s.hdrOk = true ∧ b = 0xAB#8) →
      exec (.byteTail b) s =
        .next { s with
          idx := 0#4, resValid := true, status := .invalidHeader, pm25Raw := 0x0000#16, pm10Raw := 0x0000#16,
          halted := true } ∧
      step { s with inputs := (0x100#10 ||| b.setWidth 10) :: rest } =
        .next { s with
          idx := 0#4, resValid := true, status := .invalidHeader, pm25Raw := 0x0000#16, pm10Raw := 0x0000#16,
          halted := true, inputs := rest }) ∧
    (s.hdrOk = true ∧ b = 0xAB#8 ∧ s.ckOk = false →
      exec (.byteTail b) s =
        .next { s with
          idx := 0#4, resValid := true, status := .checksumMismatch, pm25Raw := 0x0000#16, pm10Raw := 0x0000#16,
          halted := true } ∧
      step { s with inputs := (0x100#10 ||| b.setWidth 10) :: rest } =
        .next { s with
          idx := 0#4, resValid := true, status := .checksumMismatch, pm25Raw := 0x0000#16, pm10Raw := 0x0000#16,
          halted := true, inputs := rest }) ∧
    (s.hdrOk = true ∧ b = 0xAB#8 ∧ s.ckOk = true →
      exec (.byteTail b) s =
        .next { s with idx := 0#4, resValid := true, status := .ok, pm25Raw := s.f25, pm10Raw := s.f10 } ∧
      step { s with inputs := (0x100#10 ||| b.setWidth 10) :: rest } =
        .next { s with
          idx := 0#4, resValid := true, status := .ok, pm25Raw := s.f25, pm10Raw := s.f10, inputs := rest })

/-- The status word after a completion (41_frame_bytes R129 (c), 60_exceptions R190): 0x05, 0x0E or 0x0F. -/
def Obligations.StatusWordAfterCompletion : Prop :=
  ∀ (s t : State) (b : Byte), s.idx = 9#4 → exec (.byteTail b) s = .next t →
    outStat t =
      if s.hdrOk = true ∧ b = 0xAB#8 then (if s.ckOk = true then 0x05#8 else 0x0F#8) else 0x0E#8

/-! ## Who writes a register (10_state) -/

/-- The write summary of 10_state section 5: a register changes only in the transactions that write it; `inputs` and (after a
RESET) `draws`, the model's own fields, never change in `exec`. -/
def Obligations.RegisterWriters : Prop :=
  ∀ (i : Instr) (s t : State), exec i s = .next t →
    (t.idx ≠ s.idx → i = .reset ∨ ∃ b, operandByte i = some b ∧ i ≠ .byteRefused b) ∧
    (t.hdrOk ≠ s.hdrOk → i = .reset ∨ ∃ b, i = .byteMagic0 b ∨ i = .byteMagic1 b) ∧
    (t.acc ≠ s.acc → i = .reset ∨ ∃ b, i = .byteP25l b ∨ i = .byteP25h b ∨ i = .byteP10l b ∨ i = .byteP10h b ∨
      i = .byteRsv0 b ∨ i = .byteRsv1 b) ∧
    (t.ckOk ≠ s.ckOk → i = .reset ∨ ∃ b, i = .byteCksum b) ∧
    (t.f25 ≠ s.f25 → i = .reset ∨ ∃ b, i = .byteP25l b ∨ i = .byteP25h b) ∧
    (t.f10 ≠ s.f10 → i = .reset ∨ ∃ b, i = .byteP10l b ∨ i = .byteP10h b) ∧
    (t.resValid ≠ s.resValid → i = .reset ∨ ∃ b, i = .byteMagic0 b ∨ i = .byteTail b) ∧
    (t.status ≠ s.status ∨ t.pm25Raw ≠ s.pm25Raw ∨ t.pm10Raw ≠ s.pm10Raw ∨ t.halted ≠ s.halted →
      i = .reset ∨ ∃ b, i = .byteTail b) ∧
    (t.rstSeen ≠ s.rstSeen → i = .reset) ∧ t.inputs = s.inputs ∧ (s.rstSeen = true → t.draws = s.draws)

/-- R26: `halted` is 0 after reset, is set only by an error completion and cleared only by RESET; while it is 1 no byte is
accepted. -/
def Obligations.HaltedSetByErrorClearedByReset : Prop :=
  State.reset.halted = false ∧
    (∀ (i : Instr) (s t : State), exec i s = .next t →
      (s.halted = false → t.halted = true →
        (∃ b, i = .byteTail b) ∧ (t.status = .invalidHeader ∨ t.status = .checksumMismatch)) ∧
      (s.halted = true → t.halted = false → i = .reset)) ∧
    ∀ (s : State) (w : Word), s.halted = true → accepts s w = false

/-- R24: `rst_seen` is 0 at power-on, set to 1 by every RESET, and never cleared. -/
def Obligations.RstSeenSetByResetNeverCleared : Prop :=
  State.powerOn.rstSeen = false ∧
    (∀ s : State, ∃ t, exec .reset s = .next t ∧ t.rstSeen = true) ∧
    ∀ (s t : State), step s = .next t → s.rstSeen = true → t.rstSeen = true

/-- R32: `res_valid` is 0 after RESET, set to 1 by every completion and cleared by the acceptance of a position-0 byte. -/
def Obligations.ResValidSetByCompletion : Prop :=
  (∀ s t : State, exec .reset s = .next t → t.resValid = false) ∧
    (∀ (s t : State) (b : Byte), exec (.byteTail b) s = .next t → t.resValid = true) ∧
    (∀ (s t : State) (b : Byte), exec (.byteMagic0 b) s = .next t → t.resValid = false) ∧
    ∀ (i : Instr) (s t : State), exec i s = .next t → i ≠ .reset → (∀ b, i ≠ .byteTail b) → (∀ b, i ≠ .byteMagic0 b) →
      t.resValid = s.resValid

/-! ## Invariants (10_state R40) -/

/-- The state after reset meets the six clauses of R40. -/
def Obligations.ResetStateMeetsInvariants : Prop := State.reset.Inv

/-- Every step from a state that meets the six clauses of R40 leads to one that meets them. -/
def Obligations.StepKeepsInvariants : Prop :=
  ∀ s t : State, s.Inv → step s = .next t → t.Inv

/-- R40: the six clauses hold in every state reachable from a RESET, whatever the state before it and the words after it. -/
def Obligations.InvariantsAfterAnyReset : Prop :=
  ∀ (s t : State) (w : Word) (ws : List Word) (k : Nat), w.getLsbD 9 = true →
    runSteps (k + 1) { s with inputs := w :: ws } = .next t →
    t.idx.toNat ≤ 9 ∧
    (t.halted = true → (t.status = .invalidHeader ∨ t.status = .checksumMismatch) ∧ t.resValid = true ∧ t.idx = 0#4 ∧
      t.pm25Raw = 0#16 ∧ t.pm10Raw = 0#16) ∧
    (t.status = .none → t.resValid = false ∧ t.halted = false ∧ t.pm25Raw = 0#16 ∧ t.pm10Raw = 0#16) ∧
    (t.status = .ok → t.halted = false) ∧
    (t.resValid = true → t.halted = false → t.idx = 0#4 ∧ t.status = .ok) ∧
    (t.status = .none ∨ t.status = .invalidHeader ∨ t.status = .checksumMismatch → t.pm25Raw = 0#16 ∧ t.pm10Raw = 0#16)

/-- A reported error stays with the halt: that a status of INVALID_HEADER or CHECKSUM_MISMATCH goes with `halted = 1` is kept by
every step (from 41_frame_bytes R129, 60_exceptions R193, R197). -/
def Obligations.ErrorCodeOnlyWhileHalted : Prop :=
  (State.reset.status = .invalidHeader ∨ State.reset.status = .checksumMismatch → State.reset.halted = true) ∧
    ∀ s t : State, (s.status = .invalidHeader ∨ s.status = .checksumMismatch → s.halted = true) → step s = .next t →
      (t.status = .invalidHeader ∨ t.status = .checksumMismatch → t.halted = true)

/-! ## Output ports (10_state R22 to R37, 70_reset_and_hazards) -/

/-- R23: the packed status word, its four fields, and its reset value (after a RESET; before it the port is a draw). -/
def Obligations.StatusWordPacksRegisters : Prop :=
  (∀ s : State, s.rstSeen = true →
    (outStat s).toNat =
      16 * s.idx.toNat + 8 * s.halted.toNat + 4 * s.resValid.toNat +
        (match s.status with
          | .none => 0
          | .ok => 1
          | .invalidHeader => 2
          | .checksumMismatch => 3) ∧
    statStatus (outStat s) = statusCode s.status ∧ statResValid (outStat s) = s.resValid ∧
    statHalted (outStat s) = s.halted ∧ statBytePos (outStat s) = s.idx) ∧
  outStat State.reset = 0x00#8

/-- R37: `in_ready = ¬halted` once `rst_seen = 1`; before, the model's free value for that step (log 17); a byte offered while it
is 0 after a RESET is not accepted and changes no register. -/
def Obligations.InReadyIsNotHalted : Prop :=
  ∀ s : State,
    (s.rstSeen = true → outInReady s = !s.halted) ∧
    (s.rstSeen = false → outInReady s = Config.drawInReady s.draws) ∧
    (s.rstSeen = true → outInReady s = false → ∀ (b : Byte) (rest : List Word),
      accepts s (0x100#10 ||| b.setWidth 10) = false ∧
      step { s with inputs := (0x100#10 ||| b.setWidth 10) :: rest } = .next { s with inputs := rest })

/-- R36, R22: the scaled outputs are `SCALE` of the result registers, FW bits; after reset they are all bits 0. -/
def Obligations.ScaledOutputsFollowRawRegisters : Prop :=
  (∀ (fmt : FloatFmt) (s : State), s.rstSeen = true →
    outPm25Raw s = s.pm25Raw ∧ outPm10Raw s = s.pm10Raw ∧
    outPm25F fmt s = scale fmt s.pm25Raw ∧ outPm10F fmt s = scale fmt s.pm10Raw) ∧
  ∀ (fmt : FloatFmt), scale fmt 0#16 = 0#fmt.width ∧ outPm25F fmt State.reset = 0#fmt.width ∧
    outPm10F fmt State.reset = 0#fmt.width

/-- R220, R39: after a RESET step, from any state, every register has its reset value, the block is in RUN mode at position 0 with `stat = 0x00`, `in_ready = 1` and both
results 0. -/
def Obligations.OutputsAfterReset : Prop :=
  ∀ (s : State) (w : Word) (rest : List Word), w.getLsbD 9 = true →
    ∃ t, step { s with inputs := w :: rest } = .next t ∧
      t = { State.reset with inputs := rest, draws := s.draws } ∧ mode t = .run ∧ t.idx = 0#4 ∧ outStat t = 0x00#8 ∧
      outInReady t = true ∧ outPm25Raw t = 0x0000#16 ∧ outPm10Raw t = 0x0000#16 ∧
      ∀ fmt, outPm25F fmt t = 0#fmt.width ∧ outPm10F fmt t = 0#fmt.width

/-- R222: on the step that offers byte 9 the outputs still show the state before completion (RES_VALID = 0, BYTE_POS = 9); the
outcome shows from the step after it. -/
def Obligations.ResultLatency : Prop :=
  ∀ (s : State) (b : Byte) (rest : List Word), s.Inv → s.idx = 9#4 →
    statResValid (outStat s) = false ∧ statBytePos (outStat s) = 9#4 ∧
    ∃ t, step { s with inputs := (0x100#10 ||| b.setWidth 10) :: rest } = .next t ∧
      statResValid (outStat t) = true ∧ statBytePos (outStat t) = 0#4 ∧ statStatus (outStat t) ≠ 0#2

/-- The read window (70_reset_and_hazards R223): the outcome and the result registers keep their values in every step but a
RESET and the acceptance of a position-9 byte. -/
def Obligations.ResultsHoldUntilNextCompletion : Prop :=
  ∀ (s t : State) (w : Word) (rest : List Word), s.inputs = w :: rest → step s = .next t →
    w.getLsbD 9 = false → ¬(w.getLsbD 8 = true ∧ s.halted = false ∧ s.idx = 9#4) →
    t.status = s.status ∧ t.pm25Raw = s.pm25Raw ∧ t.pm10Raw = s.pm10Raw

/-! ## The scaler (42_validation_and_scaling R160 to R163) -/

/-- `SCALE(raw)` is a finite value of the format nearest to `raw / 10`, and where another value is as near its last bit is even
(R160, with the value of a pattern as log 8 presumes it). -/
def Obligations.ScaleIsNearestTiesToEven : Prop :=
  ∀ (fmt : FloatFmt) (raw : Half),
    floatFinite fmt (scale fmt raw) = true ∧
    ∀ x : BitVec fmt.width, floatFinite fmt x = true →
      |floatValue fmt (scale fmt raw) - (raw.toNat : ℚ) / 10| ≤ |floatValue fmt x - (raw.toNat : ℚ) / 10| ∧
      (|floatValue fmt (scale fmt raw) - (raw.toNat : ℚ) / 10| = |floatValue fmt x - (raw.toNat : ℚ) / 10| →
        floatValue fmt x = floatValue fmt (scale fmt raw) ∨ floatFrac fmt (scale fmt raw) % 2 = 0)

/-- R162 (a), (b): the sign bit is 0, `SCALE(0)` is all bits 0, and every other result is a normal number (log 8). -/
def Obligations.ScaleSignAndRange : Prop :=
  ∀ fmt : FloatFmt,
    (∀ raw : Half, floatSign fmt (scale fmt raw) = false ∧ floatFinite fmt (scale fmt raw) = true ∧
      (raw ≠ 0#16 → floatExp fmt (scale fmt raw) ≠ 0)) ∧
    scale fmt 0#16 = 0#fmt.width ∧ floatValue fmt (scale fmt 65535#16) = 65535 / 10

/-- R162 (c): `SCALE` is strictly increasing in both formats, as a pattern and as a value (log 8). -/
def Obligations.ScaleStrictlyIncreasing : Prop :=
  ∀ (fmt : FloatFmt) (a b : Half), a.toNat < b.toNat →
    (scale fmt a).toNat < (scale fmt b).toNat ∧ floatValue fmt (scale fmt a) < floatValue fmt (scale fmt b)

/-- R162 (d): `SCALE(raw)` is exactly `raw / 10` if and only if `raw mod 5 = 0` (log 8). -/
def Obligations.ScaleExactIffMultipleOfFive : Prop :=
  ∀ (fmt : FloatFmt) (raw : Half),
    floatValue fmt (scale fmt raw) = (raw.toNat : ℚ) / 10 ↔ raw.toNat % 5 = 0

/-- R163: the exact decimal view, integer part 0..6553 and tenths digit 0..9. -/
def Obligations.ExactDecimalView : Prop :=
  ∀ raw : Half, (raw.toNat : ℚ) / 10 = (wholeUnits raw : ℚ) + (tenthsDigit raw : ℚ) / 10 ∧
    wholeUnits raw ≤ 6553 ∧ tenthsDigit raw ≤ 9

/-! ## The frame functions (42_validation_and_scaling R150 to R173) -/

/-- R151: the checksum is the sum of bytes 2 to 7 mod 256, and `CkOK` compares it with byte 8. -/
def Obligations.ChecksumIsSumOfPayload : Prop :=
  ∀ B : Frame,
    (sum8 B).toNat =
      (B[2].toNat + B[3].toNat + B[4].toNat + B[5].toNat + B[6].toNat + B[7].toNat) % 256 ∧
    (ckOK B = true ↔ B[8] = sum8 B)

/-- R152, R76: the two fields are little-endian, `high * 256 + low`. -/
def Obligations.FieldsAreLittleEndian : Prop :=
  ∀ B : Frame, (framePm25Raw B).toNat = B[3].toNat * 256 + B[2].toNat ∧
    (framePm10Raw B).toNat = B[5].toNat * 256 + B[4].toNat

/-- R170, R150: `Decode` in its validation order: header and tail first, then the checksum, then the fields. -/
def Obligations.DecodeValidationOrder : Prop :=
  ∀ (fmt : FloatFmt) (B : Frame),
    (¬(B[0] = 0xAA#8 ∧ B[1] = 0xC0#8 ∧ B[9] = 0xAB#8) → decodeFrame fmt B = .invalidHeader) ∧
    (B[0] = 0xAA#8 ∧ B[1] = 0xC0#8 ∧ B[9] = 0xAB#8 →
      B[8].toNat ≠ (B[2].toNat + B[3].toNat + B[4].toNat + B[5].toNat + B[6].toNat + B[7].toNat) % 256 →
      decodeFrame fmt B = .checksumMismatch) ∧
    (B[0] = 0xAA#8 ∧ B[1] = 0xC0#8 ∧ B[9] = 0xAB#8 →
      B[8].toNat = (B[2].toNat + B[3].toNat + B[4].toNat + B[5].toNat + B[6].toNat + B[7].toNat) % 256 →
      decodeFrame fmt B =
        .measurement (B[3] ++ B[2]) (B[5] ++ B[4]) (scale fmt (B[3] ++ B[2])) (scale fmt (B[5] ++ B[4])))

/-- 30_encoding R79: there are exactly 2^48 frames with outcome OK. -/
def Obligations.NumberOfGoodFrames : Prop :=
  ∀ fmt : FloatFmt, Nat.card (Subtype fun B : Frame => outcomeIsOk (decodeFrame fmt B) = true) = 2 ^ 48

/-! ## Runs (42_validation_and_scaling R171, R172; 60_exceptions R197; 20_memory R50) -/

/-- Ten bytes offered one after another at position 0, from any state that is reset and not halted and whatever its hidden
registers hold, leave the outcome of `Decode` of those ten bytes, the accumulator with their checksum and the unpacker registers
with their fields (R43, R171, and R127's corner case). -/
def Obligations.TenBytesGiveDecode : Prop :=
  ∀ (fmt : FloatFmt) (s : State) (B : Frame) (rest : List Word),
    s.rstSeen = true → s.halted = false → s.idx = 0#4 →
    ∃ t, runSteps 10 { s with inputs := frameWords B ++ rest } = .next t ∧
      t.inputs = rest ∧ t.rstSeen = true ∧ t.idx = 0#4 ∧ t.resValid = true ∧
      t.acc = sum8 B ∧ t.f25 = framePm25Raw B ∧ t.f10 = framePm10Raw B ∧
      statusCode t.status = outcomeCode (decodeFrame fmt B) ∧
      t.halted = !outcomeIsOk (decodeFrame fmt B) ∧
      t.pm25Raw = (if outcomeIsOk (decodeFrame fmt B) = true then framePm25Raw B else 0#16) ∧
      t.pm10Raw = (if outcomeIsOk (decodeFrame fmt B) = true then framePm10Raw B else 0#16)

/-- From R171: a run that starts with RESET and accepts the bytes of frames that are all OK and then of a frame `B`, with IDLE steps
anywhere, ends with the outcome of `Decode(B)`: the code, the result registers, the scaled outputs, and the halt. Here no word is
accepted in the final state; that this lasts until the next RESET is `Obligations.HaltedUntilReset`. -/
def Obligations.RunAgreesWithDecode : Prop :=
  ∀ (fmt : FloatFmt) (s : State) (r : Word) (ws rest : List Word) (frames : List Frame) (B : Frame),
    r.getLsbD 9 = true → noReset ws = true →
    offeredBytes ws = frames.flatMap (fun F => F.toList) ++ B.toList →
    (∀ F ∈ frames, outcomeIsOk (decodeFrame fmt F) = true) →
    ∃ t, runSteps (ws.length + 1) { s with inputs := r :: (ws ++ rest) } = .next t ∧ t.inputs = rest ∧
      statusCode t.status = outcomeCode (decodeFrame fmt B) ∧ t.resValid = true ∧
      (∀ p25 p10 f25 f10, decodeFrame fmt B = .measurement p25 p10 f25 f10 →
        t.halted = false ∧ outPm25Raw t = p25 ∧ outPm10Raw t = p10 ∧ outPm25F fmt t = f25 ∧ outPm10F fmt t = f10) ∧
      (outcomeIsOk (decodeFrame fmt B) = false →
        t.halted = true ∧ outPm25Raw t = 0#16 ∧ outPm10Raw t = 0#16 ∧ ∀ w, accepts t w = false)

/-- R172: what a run from RESET leaves depends on the bytes offered alone: not on the state before the RESET, on the number of
IDLE steps, or on the ignored bits of the words. -/
def Obligations.OutcomeDependsOnBytesAlone : Prop :=
  ∀ (s s' : State) (r r' : Word) (ws ws' : List Word), r.getLsbD 9 = true → r'.getLsbD 9 = true →
    noReset ws = true → noReset ws' = true → offeredBytes ws = offeredBytes ws' →
    ∃ t t', runSteps (ws.length + 1) { s with inputs := r :: ws } = .next t ∧
      runSteps (ws'.length + 1) { s' with inputs := r' :: ws' } = .next t' ∧
      ∀ n, { t with inputs := [], draws := n } = { t' with inputs := [], draws := n }

/-- R197, R105: once halted, any number of steps without RESET leaves every register as it is, so the reported error cannot be
overwritten. -/
def Obligations.HaltedUntilReset : Prop :=
  ∀ (s : State) (ws rest : List Word), s.rstSeen = true → s.halted = true → noReset ws = true →
    runSteps ws.length { s with inputs := ws ++ rest } = .next { s with inputs := rest }

/-- 20_memory R50, R54: after a RESET the position is the number of bytes accepted since then, mod 10, whatever the bytes. -/
def Obligations.PositionCountsAcceptedBytes : Prop :=
  ∀ (s t : State) (r : Word) (ws : List Word), r.getLsbD 9 = true → noReset ws = true →
    runSteps (ws.length + 1) { s with inputs := r :: ws } = .next t → t.halted = false →
    t.idx.toNat = (offeredBytes ws).length % 10

/-! ## Stimulus syntax (30_encoding R81, R82) -/

/-- R82: `good p25, p10, r6, r7` stands for the ten BYTE words of a frame that decodes to those two fields. -/
def Obligations.GoodStatementMakesGoodFrame : Prop :=
  ∀ (fmt : FloatFmt) (p25 p10 r6 r7 : Nat), p25 ≤ 65535 → p10 ≤ 65535 → r6 ≤ 255 → r7 ≤ 255 →
    ∃ B : Frame, stmtWords (.good p25 p10 r6 r7) = .ok (frameWords B) ∧ B[6].toNat = r6 ∧ B[7].toNat = r7 ∧
      decodeFrame fmt B =
        .measurement (BitVec.ofNat 16 p25) (BitVec.ofNat 16 p10) (scale fmt (BitVec.ofNat 16 p25))
          (scale fmt (BitVec.ofNat 16 p10))

/-- R81, R82: the words of the statements, and the literals the transcriber refuses. -/
def Obligations.StatementsAndRefusedLiterals : Prop :=
  stmtWords .reset = .ok [0x200#10] ∧ stmtWords .idle = .ok [0x000#10] ∧
    (∀ n, n ≤ 255 → stmtWords (.byte n) = .ok [BitVec.ofNat 10 (0x100 ||| n)]) ∧
    (∀ n, 255 < n → stmtWords (.byte n) = .error .byteLiteral) ∧
    (∀ k, 1 ≤ k → stmtWords (.idleTimes k) = .ok (List.replicate k 0x000#10)) ∧
    stmtWords (.idleTimes 0) = .error .idleCount ∧
    ∀ bs : List Nat, bs.length ≠ 10 ∨ (∃ n ∈ bs, 255 < n) → stmtWords (.frame bs) = .error .frameLiterals
end

