-- ==== Sys2Proof/Laws/Decode.lean ====
section
/-! SUPPORT. The fields of the canonical words, and what the decoder reads from each kind of word. -/

namespace Sys2Proof

@[simp] theorem fieldR_byteWord (b : Byte) : fieldR (byteWord b) = false := by
  simp [fieldR, byteWord]

@[simp] theorem fieldV_byteWord (b : Byte) : fieldV (byteWord b) = true := by
  simp [fieldV, byteWord]

@[simp] theorem fieldB_byteWord (b : Byte) : fieldB (byteWord b) = b := by
  apply BitVec.eq_of_getLsbD_eq
  intro k hk
  simp [fieldB, byteWord, hk]

@[simp] theorem decodeT_byteWord (b : Byte) : decodeT (byteWord b) = .byte b := by
  simp [decodeT]

/-- RESET dominates (60_exceptions R195). -/
theorem decodeT_of_fieldR (w : Word) (h : fieldR w = true) : decodeT w = .reset := by
  simp [decodeT, h]

theorem decodeT_of_fieldV (w : Word) (hr : fieldR w = false) (hv : fieldV w = true) :
    decodeT w = .byte (fieldB w) := by
  simp [decodeT, hr, hv]

theorem decodeT_of_neither (w : Word) (hr : fieldR w = false) (hv : fieldV w = false) : decodeT w = .idle := by
  simp [decodeT, hr, hv]

/-- A BYTE before the first RESET selects no row. -/
theorem selectByte_notReset (halted : Bool) (idx : Pos) (b : Byte) :
    selectByte false halted idx b = .notReset := rfl

/-- A BYTE while halted selects BYTE.REFUSED. -/
theorem selectByte_halted (idx : Pos) (b : Byte) : selectByte true true idx b = .instr (.byteRefused b) := rfl

/-- A BYTE in RUN mode selects by position. -/
theorem selectByte_run (idx : Pos) (b : Byte) : selectByte true false idx b = selectPosition idx b := rfl

theorem selectPosition_unreachable (idx : Pos) (b : Byte) (h : 9 < idx.toNat) :
    selectPosition idx b = .unreachableIdx := by
  revert h; revert idx; decide +revert

end Sys2Proof
end

