-- ==== Sys2Proof/Laws/State.lean ====
section
/-! SUPPORT. One lemma per field per register write of Machine/Ops.lean, so that no proof unfolds a record update. -/

namespace Sys2Proof.Machine

@[simp] theorem State.setIdx_rstSeen (s : State) (v : Pos) : (s.setIdx v).rstSeen = s.rstSeen := rfl
@[simp] theorem State.setIdx_idx (s : State) (v : Pos) : (s.setIdx v).idx = v := rfl
@[simp] theorem State.setIdx_halted (s : State) (v : Pos) : (s.setIdx v).halted = s.halted := rfl
@[simp] theorem State.setIdx_hdrOk (s : State) (v : Pos) : (s.setIdx v).hdrOk = s.hdrOk := rfl
@[simp] theorem State.setIdx_acc (s : State) (v : Pos) : (s.setIdx v).acc = s.acc := rfl
@[simp] theorem State.setIdx_ckOk (s : State) (v : Pos) : (s.setIdx v).ckOk = s.ckOk := rfl
@[simp] theorem State.setIdx_f25 (s : State) (v : Pos) : (s.setIdx v).f25 = s.f25 := rfl
@[simp] theorem State.setIdx_f10 (s : State) (v : Pos) : (s.setIdx v).f10 = s.f10 := rfl
@[simp] theorem State.setIdx_resValid (s : State) (v : Pos) : (s.setIdx v).resValid = s.resValid := rfl
@[simp] theorem State.setIdx_status (s : State) (v : Pos) : (s.setIdx v).status = s.status := rfl
@[simp] theorem State.setIdx_pm25Raw (s : State) (v : Pos) : (s.setIdx v).pm25Raw = s.pm25Raw := rfl
@[simp] theorem State.setIdx_pm10Raw (s : State) (v : Pos) : (s.setIdx v).pm10Raw = s.pm10Raw := rfl
@[simp] theorem State.setIdx_inputs (s : State) (v : Pos) : (s.setIdx v).inputs = s.inputs := rfl
@[simp] theorem State.setIdx_draws (s : State) (v : Pos) : (s.setIdx v).draws = s.draws := rfl

@[simp] theorem State.setHalted_rstSeen (s : State) (v : Bool) : (s.setHalted v).rstSeen = s.rstSeen := rfl
@[simp] theorem State.setHalted_idx (s : State) (v : Bool) : (s.setHalted v).idx = s.idx := rfl
@[simp] theorem State.setHalted_halted (s : State) (v : Bool) : (s.setHalted v).halted = v := rfl
@[simp] theorem State.setHalted_hdrOk (s : State) (v : Bool) : (s.setHalted v).hdrOk = s.hdrOk := rfl
@[simp] theorem State.setHalted_acc (s : State) (v : Bool) : (s.setHalted v).acc = s.acc := rfl
@[simp] theorem State.setHalted_ckOk (s : State) (v : Bool) : (s.setHalted v).ckOk = s.ckOk := rfl
@[simp] theorem State.setHalted_f25 (s : State) (v : Bool) : (s.setHalted v).f25 = s.f25 := rfl
@[simp] theorem State.setHalted_f10 (s : State) (v : Bool) : (s.setHalted v).f10 = s.f10 := rfl
@[simp] theorem State.setHalted_resValid (s : State) (v : Bool) : (s.setHalted v).resValid = s.resValid := rfl
@[simp] theorem State.setHalted_status (s : State) (v : Bool) : (s.setHalted v).status = s.status := rfl
@[simp] theorem State.setHalted_pm25Raw (s : State) (v : Bool) : (s.setHalted v).pm25Raw = s.pm25Raw := rfl
@[simp] theorem State.setHalted_pm10Raw (s : State) (v : Bool) : (s.setHalted v).pm10Raw = s.pm10Raw := rfl
@[simp] theorem State.setHalted_inputs (s : State) (v : Bool) : (s.setHalted v).inputs = s.inputs := rfl
@[simp] theorem State.setHalted_draws (s : State) (v : Bool) : (s.setHalted v).draws = s.draws := rfl

@[simp] theorem State.setHdrOk_rstSeen (s : State) (v : Bool) : (s.setHdrOk v).rstSeen = s.rstSeen := rfl
@[simp] theorem State.setHdrOk_idx (s : State) (v : Bool) : (s.setHdrOk v).idx = s.idx := rfl
@[simp] theorem State.setHdrOk_halted (s : State) (v : Bool) : (s.setHdrOk v).halted = s.halted := rfl
@[simp] theorem State.setHdrOk_hdrOk (s : State) (v : Bool) : (s.setHdrOk v).hdrOk = v := rfl
@[simp] theorem State.setHdrOk_acc (s : State) (v : Bool) : (s.setHdrOk v).acc = s.acc := rfl
@[simp] theorem State.setHdrOk_ckOk (s : State) (v : Bool) : (s.setHdrOk v).ckOk = s.ckOk := rfl
@[simp] theorem State.setHdrOk_f25 (s : State) (v : Bool) : (s.setHdrOk v).f25 = s.f25 := rfl
@[simp] theorem State.setHdrOk_f10 (s : State) (v : Bool) : (s.setHdrOk v).f10 = s.f10 := rfl
@[simp] theorem State.setHdrOk_resValid (s : State) (v : Bool) : (s.setHdrOk v).resValid = s.resValid := rfl
@[simp] theorem State.setHdrOk_status (s : State) (v : Bool) : (s.setHdrOk v).status = s.status := rfl
@[simp] theorem State.setHdrOk_pm25Raw (s : State) (v : Bool) : (s.setHdrOk v).pm25Raw = s.pm25Raw := rfl
@[simp] theorem State.setHdrOk_pm10Raw (s : State) (v : Bool) : (s.setHdrOk v).pm10Raw = s.pm10Raw := rfl
@[simp] theorem State.setHdrOk_inputs (s : State) (v : Bool) : (s.setHdrOk v).inputs = s.inputs := rfl
@[simp] theorem State.setHdrOk_draws (s : State) (v : Bool) : (s.setHdrOk v).draws = s.draws := rfl

@[simp] theorem State.setAcc_rstSeen (s : State) (v : Byte) : (s.setAcc v).rstSeen = s.rstSeen := rfl
@[simp] theorem State.setAcc_idx (s : State) (v : Byte) : (s.setAcc v).idx = s.idx := rfl
@[simp] theorem State.setAcc_halted (s : State) (v : Byte) : (s.setAcc v).halted = s.halted := rfl
@[simp] theorem State.setAcc_hdrOk (s : State) (v : Byte) : (s.setAcc v).hdrOk = s.hdrOk := rfl
@[simp] theorem State.setAcc_acc (s : State) (v : Byte) : (s.setAcc v).acc = v := rfl
@[simp] theorem State.setAcc_ckOk (s : State) (v : Byte) : (s.setAcc v).ckOk = s.ckOk := rfl
@[simp] theorem State.setAcc_f25 (s : State) (v : Byte) : (s.setAcc v).f25 = s.f25 := rfl
@[simp] theorem State.setAcc_f10 (s : State) (v : Byte) : (s.setAcc v).f10 = s.f10 := rfl
@[simp] theorem State.setAcc_resValid (s : State) (v : Byte) : (s.setAcc v).resValid = s.resValid := rfl
@[simp] theorem State.setAcc_status (s : State) (v : Byte) : (s.setAcc v).status = s.status := rfl
@[simp] theorem State.setAcc_pm25Raw (s : State) (v : Byte) : (s.setAcc v).pm25Raw = s.pm25Raw := rfl
@[simp] theorem State.setAcc_pm10Raw (s : State) (v : Byte) : (s.setAcc v).pm10Raw = s.pm10Raw := rfl
@[simp] theorem State.setAcc_inputs (s : State) (v : Byte) : (s.setAcc v).inputs = s.inputs := rfl
@[simp] theorem State.setAcc_draws (s : State) (v : Byte) : (s.setAcc v).draws = s.draws := rfl

@[simp] theorem State.setCkOk_rstSeen (s : State) (v : Bool) : (s.setCkOk v).rstSeen = s.rstSeen := rfl
@[simp] theorem State.setCkOk_idx (s : State) (v : Bool) : (s.setCkOk v).idx = s.idx := rfl
@[simp] theorem State.setCkOk_halted (s : State) (v : Bool) : (s.setCkOk v).halted = s.halted := rfl
@[simp] theorem State.setCkOk_hdrOk (s : State) (v : Bool) : (s.setCkOk v).hdrOk = s.hdrOk := rfl
@[simp] theorem State.setCkOk_acc (s : State) (v : Bool) : (s.setCkOk v).acc = s.acc := rfl
@[simp] theorem State.setCkOk_ckOk (s : State) (v : Bool) : (s.setCkOk v).ckOk = v := rfl
@[simp] theorem State.setCkOk_f25 (s : State) (v : Bool) : (s.setCkOk v).f25 = s.f25 := rfl
@[simp] theorem State.setCkOk_f10 (s : State) (v : Bool) : (s.setCkOk v).f10 = s.f10 := rfl
@[simp] theorem State.setCkOk_resValid (s : State) (v : Bool) : (s.setCkOk v).resValid = s.resValid := rfl
@[simp] theorem State.setCkOk_status (s : State) (v : Bool) : (s.setCkOk v).status = s.status := rfl
@[simp] theorem State.setCkOk_pm25Raw (s : State) (v : Bool) : (s.setCkOk v).pm25Raw = s.pm25Raw := rfl
@[simp] theorem State.setCkOk_pm10Raw (s : State) (v : Bool) : (s.setCkOk v).pm10Raw = s.pm10Raw := rfl
@[simp] theorem State.setCkOk_inputs (s : State) (v : Bool) : (s.setCkOk v).inputs = s.inputs := rfl
@[simp] theorem State.setCkOk_draws (s : State) (v : Bool) : (s.setCkOk v).draws = s.draws := rfl

@[simp] theorem State.setF25_rstSeen (s : State) (v : Half) : (s.setF25 v).rstSeen = s.rstSeen := rfl
@[simp] theorem State.setF25_idx (s : State) (v : Half) : (s.setF25 v).idx = s.idx := rfl
@[simp] theorem State.setF25_halted (s : State) (v : Half) : (s.setF25 v).halted = s.halted := rfl
@[simp] theorem State.setF25_hdrOk (s : State) (v : Half) : (s.setF25 v).hdrOk = s.hdrOk := rfl
@[simp] theorem State.setF25_acc (s : State) (v : Half) : (s.setF25 v).acc = s.acc := rfl
@[simp] theorem State.setF25_ckOk (s : State) (v : Half) : (s.setF25 v).ckOk = s.ckOk := rfl
@[simp] theorem State.setF25_f25 (s : State) (v : Half) : (s.setF25 v).f25 = v := rfl
@[simp] theorem State.setF25_f10 (s : State) (v : Half) : (s.setF25 v).f10 = s.f10 := rfl
@[simp] theorem State.setF25_resValid (s : State) (v : Half) : (s.setF25 v).resValid = s.resValid := rfl
@[simp] theorem State.setF25_status (s : State) (v : Half) : (s.setF25 v).status = s.status := rfl
@[simp] theorem State.setF25_pm25Raw (s : State) (v : Half) : (s.setF25 v).pm25Raw = s.pm25Raw := rfl
@[simp] theorem State.setF25_pm10Raw (s : State) (v : Half) : (s.setF25 v).pm10Raw = s.pm10Raw := rfl
@[simp] theorem State.setF25_inputs (s : State) (v : Half) : (s.setF25 v).inputs = s.inputs := rfl
@[simp] theorem State.setF25_draws (s : State) (v : Half) : (s.setF25 v).draws = s.draws := rfl

@[simp] theorem State.setF10_rstSeen (s : State) (v : Half) : (s.setF10 v).rstSeen = s.rstSeen := rfl
@[simp] theorem State.setF10_idx (s : State) (v : Half) : (s.setF10 v).idx = s.idx := rfl
@[simp] theorem State.setF10_halted (s : State) (v : Half) : (s.setF10 v).halted = s.halted := rfl
@[simp] theorem State.setF10_hdrOk (s : State) (v : Half) : (s.setF10 v).hdrOk = s.hdrOk := rfl
@[simp] theorem State.setF10_acc (s : State) (v : Half) : (s.setF10 v).acc = s.acc := rfl
@[simp] theorem State.setF10_ckOk (s : State) (v : Half) : (s.setF10 v).ckOk = s.ckOk := rfl
@[simp] theorem State.setF10_f25 (s : State) (v : Half) : (s.setF10 v).f25 = s.f25 := rfl
@[simp] theorem State.setF10_f10 (s : State) (v : Half) : (s.setF10 v).f10 = v := rfl
@[simp] theorem State.setF10_resValid (s : State) (v : Half) : (s.setF10 v).resValid = s.resValid := rfl
@[simp] theorem State.setF10_status (s : State) (v : Half) : (s.setF10 v).status = s.status := rfl
@[simp] theorem State.setF10_pm25Raw (s : State) (v : Half) : (s.setF10 v).pm25Raw = s.pm25Raw := rfl
@[simp] theorem State.setF10_pm10Raw (s : State) (v : Half) : (s.setF10 v).pm10Raw = s.pm10Raw := rfl
@[simp] theorem State.setF10_inputs (s : State) (v : Half) : (s.setF10 v).inputs = s.inputs := rfl
@[simp] theorem State.setF10_draws (s : State) (v : Half) : (s.setF10 v).draws = s.draws := rfl

@[simp] theorem State.setResValid_rstSeen (s : State) (v : Bool) : (s.setResValid v).rstSeen = s.rstSeen := rfl
@[simp] theorem State.setResValid_idx (s : State) (v : Bool) : (s.setResValid v).idx = s.idx := rfl
@[simp] theorem State.setResValid_halted (s : State) (v : Bool) : (s.setResValid v).halted = s.halted := rfl
@[simp] theorem State.setResValid_hdrOk (s : State) (v : Bool) : (s.setResValid v).hdrOk = s.hdrOk := rfl
@[simp] theorem State.setResValid_acc (s : State) (v : Bool) : (s.setResValid v).acc = s.acc := rfl
@[simp] theorem State.setResValid_ckOk (s : State) (v : Bool) : (s.setResValid v).ckOk = s.ckOk := rfl
@[simp] theorem State.setResValid_f25 (s : State) (v : Bool) : (s.setResValid v).f25 = s.f25 := rfl
@[simp] theorem State.setResValid_f10 (s : State) (v : Bool) : (s.setResValid v).f10 = s.f10 := rfl
@[simp] theorem State.setResValid_resValid (s : State) (v : Bool) : (s.setResValid v).resValid = v := rfl
@[simp] theorem State.setResValid_status (s : State) (v : Bool) : (s.setResValid v).status = s.status := rfl
@[simp] theorem State.setResValid_pm25Raw (s : State) (v : Bool) : (s.setResValid v).pm25Raw = s.pm25Raw := rfl
@[simp] theorem State.setResValid_pm10Raw (s : State) (v : Bool) : (s.setResValid v).pm10Raw = s.pm10Raw := rfl
@[simp] theorem State.setResValid_inputs (s : State) (v : Bool) : (s.setResValid v).inputs = s.inputs := rfl
@[simp] theorem State.setResValid_draws (s : State) (v : Bool) : (s.setResValid v).draws = s.draws := rfl

@[simp] theorem State.setResult_rstSeen (s : State) (st : FrameStatus) (p q : Half) : (s.setResult st p q).rstSeen = s.rstSeen := rfl
@[simp] theorem State.setResult_idx (s : State) (st : FrameStatus) (p q : Half) : (s.setResult st p q).idx = s.idx := rfl
@[simp] theorem State.setResult_halted (s : State) (st : FrameStatus) (p q : Half) : (s.setResult st p q).halted = s.halted := rfl
@[simp] theorem State.setResult_hdrOk (s : State) (st : FrameStatus) (p q : Half) : (s.setResult st p q).hdrOk = s.hdrOk := rfl
@[simp] theorem State.setResult_acc (s : State) (st : FrameStatus) (p q : Half) : (s.setResult st p q).acc = s.acc := rfl
@[simp] theorem State.setResult_ckOk (s : State) (st : FrameStatus) (p q : Half) : (s.setResult st p q).ckOk = s.ckOk := rfl
@[simp] theorem State.setResult_f25 (s : State) (st : FrameStatus) (p q : Half) : (s.setResult st p q).f25 = s.f25 := rfl
@[simp] theorem State.setResult_f10 (s : State) (st : FrameStatus) (p q : Half) : (s.setResult st p q).f10 = s.f10 := rfl
@[simp] theorem State.setResult_resValid (s : State) (st : FrameStatus) (p q : Half) : (s.setResult st p q).resValid = s.resValid := rfl
@[simp] theorem State.setResult_status (s : State) (st : FrameStatus) (p q : Half) : (s.setResult st p q).status = st := rfl
@[simp] theorem State.setResult_pm25Raw (s : State) (st : FrameStatus) (p q : Half) : (s.setResult st p q).pm25Raw = p := rfl
@[simp] theorem State.setResult_pm10Raw (s : State) (st : FrameStatus) (p q : Half) : (s.setResult st p q).pm10Raw = q := rfl
@[simp] theorem State.setResult_inputs (s : State) (st : FrameStatus) (p q : Half) : (s.setResult st p q).inputs = s.inputs := rfl
@[simp] theorem State.setResult_draws (s : State) (st : FrameStatus) (p q : Half) : (s.setResult st p q).draws = s.draws := rfl

@[simp] theorem State.setInputs_rstSeen (s : State) (ws : List Word) : (s.setInputs ws).rstSeen = s.rstSeen := rfl
@[simp] theorem State.setInputs_idx (s : State) (ws : List Word) : (s.setInputs ws).idx = s.idx := rfl
@[simp] theorem State.setInputs_halted (s : State) (ws : List Word) : (s.setInputs ws).halted = s.halted := rfl
@[simp] theorem State.setInputs_hdrOk (s : State) (ws : List Word) : (s.setInputs ws).hdrOk = s.hdrOk := rfl
@[simp] theorem State.setInputs_acc (s : State) (ws : List Word) : (s.setInputs ws).acc = s.acc := rfl
@[simp] theorem State.setInputs_ckOk (s : State) (ws : List Word) : (s.setInputs ws).ckOk = s.ckOk := rfl
@[simp] theorem State.setInputs_f25 (s : State) (ws : List Word) : (s.setInputs ws).f25 = s.f25 := rfl
@[simp] theorem State.setInputs_f10 (s : State) (ws : List Word) : (s.setInputs ws).f10 = s.f10 := rfl
@[simp] theorem State.setInputs_resValid (s : State) (ws : List Word) : (s.setInputs ws).resValid = s.resValid := rfl
@[simp] theorem State.setInputs_status (s : State) (ws : List Word) : (s.setInputs ws).status = s.status := rfl
@[simp] theorem State.setInputs_pm25Raw (s : State) (ws : List Word) : (s.setInputs ws).pm25Raw = s.pm25Raw := rfl
@[simp] theorem State.setInputs_pm10Raw (s : State) (ws : List Word) : (s.setInputs ws).pm10Raw = s.pm10Raw := rfl
@[simp] theorem State.setInputs_inputs (s : State) (ws : List Word) : (s.setInputs ws).inputs = ws := rfl
@[simp] theorem State.setInputs_draws (s : State) (ws : List Word) : (s.setInputs ws).draws = s.draws := rfl

@[simp] theorem State.countDraw_rstSeen (s : State) : (s.countDraw).rstSeen = s.rstSeen := rfl
@[simp] theorem State.countDraw_idx (s : State) : (s.countDraw).idx = s.idx := rfl
@[simp] theorem State.countDraw_halted (s : State) : (s.countDraw).halted = s.halted := rfl
@[simp] theorem State.countDraw_hdrOk (s : State) : (s.countDraw).hdrOk = s.hdrOk := rfl
@[simp] theorem State.countDraw_acc (s : State) : (s.countDraw).acc = s.acc := rfl
@[simp] theorem State.countDraw_ckOk (s : State) : (s.countDraw).ckOk = s.ckOk := rfl
@[simp] theorem State.countDraw_f25 (s : State) : (s.countDraw).f25 = s.f25 := rfl
@[simp] theorem State.countDraw_f10 (s : State) : (s.countDraw).f10 = s.f10 := rfl
@[simp] theorem State.countDraw_resValid (s : State) : (s.countDraw).resValid = s.resValid := rfl
@[simp] theorem State.countDraw_status (s : State) : (s.countDraw).status = s.status := rfl
@[simp] theorem State.countDraw_pm25Raw (s : State) : (s.countDraw).pm25Raw = s.pm25Raw := rfl
@[simp] theorem State.countDraw_pm10Raw (s : State) : (s.countDraw).pm10Raw = s.pm10Raw := rfl
@[simp] theorem State.countDraw_inputs (s : State) : (s.countDraw).inputs = s.inputs := rfl
@[simp] theorem State.countDraw_draws (s : State) : (s.countDraw).draws = s.draws + 1 := rfl

/-! RESET leaves every register at its value of 10_state R39. -/

@[simp] theorem resetRegisters_rstSeen (s : State) : (resetRegisters s).rstSeen = State.reset.rstSeen := rfl
@[simp] theorem resetRegisters_idx (s : State) : (resetRegisters s).idx = State.reset.idx := rfl
@[simp] theorem resetRegisters_halted (s : State) : (resetRegisters s).halted = State.reset.halted := rfl
@[simp] theorem resetRegisters_hdrOk (s : State) : (resetRegisters s).hdrOk = State.reset.hdrOk := rfl
@[simp] theorem resetRegisters_acc (s : State) : (resetRegisters s).acc = State.reset.acc := rfl
@[simp] theorem resetRegisters_ckOk (s : State) : (resetRegisters s).ckOk = State.reset.ckOk := rfl
@[simp] theorem resetRegisters_f25 (s : State) : (resetRegisters s).f25 = State.reset.f25 := rfl
@[simp] theorem resetRegisters_f10 (s : State) : (resetRegisters s).f10 = State.reset.f10 := rfl
@[simp] theorem resetRegisters_resValid (s : State) : (resetRegisters s).resValid = State.reset.resValid := rfl
@[simp] theorem resetRegisters_status (s : State) : (resetRegisters s).status = State.reset.status := rfl
@[simp] theorem resetRegisters_pm25Raw (s : State) : (resetRegisters s).pm25Raw = State.reset.pm25Raw := rfl
@[simp] theorem resetRegisters_pm10Raw (s : State) : (resetRegisters s).pm10Raw = State.reset.pm10Raw := rfl
@[simp] theorem resetRegisters_inputs (s : State) : (resetRegisters s).inputs = s.inputs := rfl
@[simp] theorem resetRegisters_draws (s : State) : (resetRegisters s).draws = s.draws := rfl

end Sys2Proof.Machine
end

