-- ==== Sys2Proof/Laws/Ops.lean ====
section
/-! SUPPORT. For each shared operation, once, everything it can do. -/

namespace Sys2Proof.Machine

/-- Everything `acceptAt` can answer with a next state. -/
theorem acceptAt_next_iff (p : Pos) (write : State → State) (s t : State) :
    acceptAt p write s = .next t ↔
      s.rstSeen = true ∧ s.halted = false ∧ s.idx.toNat ≤ 9 ∧ s.idx = p ∧
        t = (write s).setIdx (nextPos s.idx) := by
  unfold acceptAt
  constructor
  · intro h
    split at h <;> try cases h
    split at h <;> try cases h
    split at h <;> try cases h
    split at h <;> cases h
    simp_all
  · rintro ⟨h1, h2, h3, h4, rfl⟩
    simp [h1, h2, ← h4, Nat.not_lt.mpr h3]

/-- `acceptAt` under the guard of its row. -/
theorem acceptAt_of_guard {p : Pos} (write : State → State) {s : State} (hr : s.rstSeen = true)
    (hh : s.halted = false) (hi : s.idx = p) (hp : p.toNat ≤ 9) :
    acceptAt p write s = .next ((write s).setIdx (nextPos p)) := by
  rw [acceptAt_next_iff, hi]
  exact ⟨hr, hh, hp, rfl, rfl⟩

/-- `acceptAt` before the first RESET (10_state R38). -/
theorem acceptAt_notReset (p : Pos) (write : State → State) {s : State} (hr : s.rstSeen = false) :
    acceptAt p write s = .fault .notReset := by
  simp [acceptAt, hr]

/-- Everything `refuseByte` can answer with a next state. -/
theorem refuseByte_next_iff (s t : State) :
    refuseByte s = .next t ↔ s.rstSeen = true ∧ s.halted = true ∧ t = s := by
  unfold refuseByte
  constructor
  · intro h
    split at h <;> try cases h
    split at h <;> try cases h
    · simp_all
    · split at h <;> cases h
  · rintro ⟨h1, h2, rfl⟩
    simp [h1, h2]

theorem refuseByte_notReset {s : State} (hr : s.rstSeen = false) : refuseByte s = .fault .notReset := by
  simp [refuseByte, hr]

/-- The three completions of a frame (41_frame_bytes R129). -/
theorem completeFrame_cases (tailOk : Bool) (s : State) :
    ((s.hdrOk && tailOk) = false ∧
        completeFrame tailOk s = ((s.setResult .invalidHeader 0 0).setHalted true).setResValid true) ∨
      ((s.hdrOk && tailOk) = true ∧ s.ckOk = false ∧
        completeFrame tailOk s = ((s.setResult .checksumMismatch 0 0).setHalted true).setResValid true) ∨
      ((s.hdrOk && tailOk) = true ∧ s.ckOk = true ∧
        completeFrame tailOk s = (s.setResult .ok s.f25 s.f10).setResValid true) := by
  unfold completeFrame raiseFrameError completeOk errorStatus
  cases h : (s.hdrOk && tailOk)
  · exact .inl ⟨rfl, rfl⟩
  · cases hc : s.ckOk
    · exact .inr (.inl ⟨rfl, rfl, by simp⟩)
    · exact .inr (.inr ⟨rfl, rfl, by simp⟩)

/-- After the first RESET an IDLE step changes nothing at all. -/
theorem passStep_of_rstSeen {s : State} (h : s.rstSeen = true) : passStep s = s := by
  simp [passStep, h]

/-- An IDLE step writes no register: only the counter of draws may move, and only before the first RESET. -/
theorem passStep_eq (s : State) : ∃ n, passStep s = { s with draws := n } := by
  unfold passStep State.countDraw
  split
  · exact ⟨s.draws, rfl⟩
  · exact ⟨s.draws + 1, rfl⟩

/-- The position after an accepted byte, at each position. -/
theorem nextPos_nine : nextPos 9#4 = 0#4 := rfl

theorem nextPos_of_ne {p : Pos} (h : p ≠ 9#4) : nextPos p = p + 1#4 := by
  simp [nextPos, h]

/-- A step with no word offered. -/
theorem step_nil {s : State} (h : s.inputs = []) : step s = .refused .endOfRun := by
  simp [step, takeWord, h]

/-- A step with a word offered: the row is selected from the pre-step registers and executed with the word consumed. -/
theorem step_cons {s : State} {w : Word} {rest : List Word} (h : s.inputs = w :: rest) :
    step s =
      match decode s.rstSeen s.halted s.idx w with
      | .instr i => exec i (s.setInputs rest)
      | .notReset => .fault .notReset
      | .unreachableIdx => .refused .unreachableIdx := by
  simp only [step, takeWord, h]
  rfl

/-- The word placed is the one the next step takes. -/
theorem placeWord_inputs {s : State} {nbits w : Nat} {v : Word} (h : wordOfBits nbits w = .ok v) :
    (placeWord s nbits w).inputs = v :: s.inputs.tail := by
  simp [placeWord, h]

/-- RESET leaves the state after reset, but for the model's own two fields. -/
theorem resetRegisters_eq (s : State) :
    resetRegisters s = { State.reset with inputs := s.inputs, draws := s.draws } := rfl

end Sys2Proof.Machine
end

