-- ==== Sys2Proof/Laws/Exec.lean ====
section
/-! SUPPORT. One inversion lemma per instruction: exactly when it answers a next state, and which; and one for the step. -/

namespace Sys2Proof.Machine

/-- `acceptAt` at a position 0..9: completes exactly under the guard of its row. -/
theorem acceptAt_legal_iff {p : Pos} (hp : p.toNat ≤ 9) (write : State → State) (s t : State) :
    acceptAt p write s = .next t ↔
      s.rstSeen = true ∧ s.halted = false ∧ s.idx = p ∧ t = (write s).setIdx (nextPos p) := by
  rw [acceptAt_next_iff]
  constructor
  · rintro ⟨h1, h2, -, rfl, h5⟩
    exact ⟨h1, h2, rfl, h5⟩
  · rintro ⟨h1, h2, rfl, h5⟩
    exact ⟨h1, h2, hp, rfl, h5⟩

theorem exec_reset_iff (s t : State) : exec .reset s = .next t ↔ t = resetRegisters s := by
  simp only [exec, execReset, Host.Outcome.next.injEq]
  exact eq_comm

theorem exec_idle_iff (s t : State) : exec .idle s = .next t ↔ t = passStep s := by
  simp only [exec, execIdle, Host.Outcome.next.injEq]
  exact eq_comm

theorem exec_byteRefused_iff (b : Byte) (s t : State) :
    exec (.byteRefused b) s = .next t ↔ s.rstSeen = true ∧ s.halted = true ∧ t = s := refuseByte_next_iff s t

theorem exec_byteMagic0_iff (b : Byte) (s t : State) :
    exec (.byteMagic0 b) s = .next t ↔
      s.rstSeen = true ∧ s.halted = false ∧ s.idx = 0#4 ∧
        t = ((s.setHdrOk (hdrAfterMagic0 b)).setResValid false).setIdx 1#4 :=
  acceptAt_legal_iff (p := 0#4) (by decide) (fun s => (s.setHdrOk (hdrAfterMagic0 b)).setResValid false) s t

theorem exec_byteMagic1_iff (b : Byte) (s t : State) :
    exec (.byteMagic1 b) s = .next t ↔
      s.rstSeen = true ∧ s.halted = false ∧ s.idx = 1#4 ∧
        t = (s.setHdrOk (hdrAfterMagic1 s.hdrOk b)).setIdx 2#4 :=
  acceptAt_legal_iff (p := 1#4) (by decide) (fun s => s.setHdrOk (hdrAfterMagic1 s.hdrOk b)) s t

theorem exec_byteP25l_iff (b : Byte) (s t : State) :
    exec (.byteP25l b) s = .next t ↔
      s.rstSeen = true ∧ s.halted = false ∧ s.idx = 2#4 ∧
        t = ((s.setAcc b).setF25 (setLowByte s.f25 b)).setIdx 3#4 :=
  acceptAt_legal_iff (p := 2#4) (by decide) (fun s => (s.setAcc b).setF25 (setLowByte s.f25 b)) s t

theorem exec_byteP25h_iff (b : Byte) (s t : State) :
    exec (.byteP25h b) s = .next t ↔
      s.rstSeen = true ∧ s.halted = false ∧ s.idx = 3#4 ∧
        t = ((s.setAcc (add8 s.acc b)).setF25 (setHighByte s.f25 b)).setIdx 4#4 :=
  acceptAt_legal_iff (p := 3#4) (by decide) (fun s => (s.setAcc (add8 s.acc b)).setF25 (setHighByte s.f25 b)) s t

theorem exec_byteP10l_iff (b : Byte) (s t : State) :
    exec (.byteP10l b) s = .next t ↔
      s.rstSeen = true ∧ s.halted = false ∧ s.idx = 4#4 ∧
        t = ((s.setAcc (add8 s.acc b)).setF10 (setLowByte s.f10 b)).setIdx 5#4 :=
  acceptAt_legal_iff (p := 4#4) (by decide) (fun s => (s.setAcc (add8 s.acc b)).setF10 (setLowByte s.f10 b)) s t

theorem exec_byteP10h_iff (b : Byte) (s t : State) :
    exec (.byteP10h b) s = .next t ↔
      s.rstSeen = true ∧ s.halted = false ∧ s.idx = 5#4 ∧
        t = ((s.setAcc (add8 s.acc b)).setF10 (setHighByte s.f10 b)).setIdx 6#4 :=
  acceptAt_legal_iff (p := 5#4) (by decide) (fun s => (s.setAcc (add8 s.acc b)).setF10 (setHighByte s.f10 b)) s t

theorem exec_byteRsv0_iff (b : Byte) (s t : State) :
    exec (.byteRsv0 b) s = .next t ↔
      s.rstSeen = true ∧ s.halted = false ∧ s.idx = 6#4 ∧
        t = (s.setAcc (add8 s.acc b)).setIdx 7#4 :=
  acceptAt_legal_iff (p := 6#4) (by decide) (fun s => s.setAcc (add8 s.acc b)) s t

theorem exec_byteRsv1_iff (b : Byte) (s t : State) :
    exec (.byteRsv1 b) s = .next t ↔
      s.rstSeen = true ∧ s.halted = false ∧ s.idx = 7#4 ∧
        t = (s.setAcc (add8 s.acc b)).setIdx 8#4 :=
  acceptAt_legal_iff (p := 7#4) (by decide) (fun s => s.setAcc (add8 s.acc b)) s t

theorem exec_byteCksum_iff (b : Byte) (s t : State) :
    exec (.byteCksum b) s = .next t ↔
      s.rstSeen = true ∧ s.halted = false ∧ s.idx = 8#4 ∧
        t = (s.setCkOk (checksumMatches s.acc b)).setIdx 9#4 :=
  acceptAt_legal_iff (p := 8#4) (by decide) (fun s => s.setCkOk (checksumMatches s.acc b)) s t

theorem exec_byteTail_iff (b : Byte) (s t : State) :
    exec (.byteTail b) s = .next t ↔
      s.rstSeen = true ∧ s.halted = false ∧ s.idx = 9#4 ∧
        t = (completeFrame (tailMatches b) s).setIdx 0#4 :=
  acceptAt_legal_iff (p := 9#4) (by decide) (completeFrame (tailMatches b)) s t

/-- A position selects a row exactly when it is 0..9, and then the row of that position. -/
theorem selectPosition_cases (idx : Pos) (b : Byte) :
    (∃ i, selectPosition idx b = .instr i ∧ operandByte i = some b ∧ tableGuard true false idx i = true) ∨
      (9 < idx.toNat ∧ selectPosition idx b = .unreachableIdx) := by
  have h : ∀ n : Fin 16,
      (∃ i, selectPosition (BitVec.ofFin n) b = .instr i ∧ operandByte i = some b ∧
        tableGuard true false (BitVec.ofFin n) i = true) ∨
      (9 < (BitVec.ofFin n : Pos).toNat ∧ selectPosition (BitVec.ofFin n) b = .unreachableIdx) := by
    intro n
    fin_cases n
    iterate 10 exact .inl ⟨_, rfl, rfl, rfl⟩
    all_goals exact .inr ⟨by decide, rfl⟩
  exact h idx.toFin

/-- Everything a step can do when it answers a next state. -/
theorem step_next_cases {s t : State} (h : step s = .next t) :
    ∃ w rest, s.inputs = w :: rest ∧
      ((fieldR w = true ∧ t = resetRegisters (s.setInputs rest)) ∨
        (fieldR w = false ∧ fieldV w = false ∧ t = passStep (s.setInputs rest)) ∨
        (fieldR w = false ∧ fieldV w = true ∧ s.rstSeen = true ∧ s.halted = true ∧ t = s.setInputs rest) ∨
        (fieldR w = false ∧ fieldV w = true ∧ s.rstSeen = true ∧ s.halted = false ∧
          ∃ i, selectPosition s.idx (fieldB w) = .instr i ∧ operandByte i = some (fieldB w) ∧
            tableGuard true false s.idx i = true ∧ exec i (s.setInputs rest) = .next t)) := by
  cases hin : s.inputs with
  | nil => rw [step_nil hin] at h; cases h
  | cons w rest =>
    refine ⟨w, rest, rfl, ?_⟩
    rw [step_cons hin, decode] at h
    cases hr : fieldR w
    · cases hv : fieldV w
      · rw [decodeT_of_neither w hr hv] at h
        exact .inr (.inl ⟨rfl, rfl, (exec_idle_iff _ _).1 h⟩)
      · rw [decodeT_of_fieldV w hr hv] at h
        cases hs : s.rstSeen <;> rw [hs] at h
        · cases h
        cases hh : s.halted <;> rw [hh] at h
        · simp only [selectByte_run] at h
          rcases selectPosition_cases s.idx (fieldB w) with ⟨i, hi, ho, hg⟩ | ⟨-, hi⟩ <;> rw [hi] at h
          · exact .inr (.inr (.inr ⟨rfl, rfl, rfl, rfl, i, hi, ho, hg, h⟩))
          · cases h
        · simp only [selectByte_halted] at h
          exact .inr (.inr (.inl ⟨rfl, rfl, rfl, rfl, ((exec_byteRefused_iff _ _ _).1 h).2.2⟩))
    · rw [decodeT_of_fieldR w hr] at h
      exact .inl ⟨rfl, (exec_reset_iff _ _).1 h⟩

end Sys2Proof.Machine
end

