-- ==== Sys2Proof/Laws/Operands.lean ====
section
/-! SUPPORT. The halves of a little-endian field, and what a write of one half leaves of the other. -/

namespace Sys2Proof.Machine

@[simp] theorem lowByte_u16 (lo hi : Byte) : lowByte (u16 lo hi) = lo := by
  apply BitVec.eq_of_getLsbD_eq
  intro k hk
  have h : (hi ++ lo : BitVec (8 + 8)).getLsbD k = lo.getLsbD k := by
    rw [BitVec.getLsbD_append]
    simp [hk]
  simpa [lowByte, u16, hk] using h

@[simp] theorem highByte_u16 (lo hi : Byte) : highByte (u16 lo hi) = hi := by
  apply BitVec.eq_of_getLsbD_eq
  intro k hk
  have h : (hi ++ lo : BitVec (8 + 8)).getLsbD (8 + k) = hi.getLsbD k := by
    rw [BitVec.getLsbD_append]
    simp
  simpa [highByte, u16, hk] using h

@[simp] theorem lowByte_setLowByte (f : Half) (b : Byte) : lowByte (setLowByte f b) = b := by simp [setLowByte]

@[simp] theorem highByte_setLowByte (f : Half) (b : Byte) : highByte (setLowByte f b) = highByte f := by
  simp [setLowByte]

@[simp] theorem highByte_setHighByte (f : Half) (b : Byte) : highByte (setHighByte f b) = b := by simp [setHighByte]

@[simp] theorem lowByte_setHighByte (f : Half) (b : Byte) : lowByte (setHighByte f b) = lowByte f := by
  simp [setHighByte]

/-- Writing the low half and then the high half of a field gives the field of the two bytes, whatever it held. -/
@[simp] theorem setHighByte_setLowByte (f : Half) (lo hi : Byte) : setHighByte (setLowByte f lo) hi = u16 lo hi := by
  simp [setHighByte]

end Sys2Proof.Machine
end

