-- ==== Sys2Proof/Laws/PerInstr.lean ====
section
/-! SUPPORT. The family TableRow: every instruction's canonical word matches its row of spec/opcode_table.json and carries its
operand in field `b`. -/

namespace Sys2Proof.Laws.TableRow

/-- The canonical word has the row's fixed bits, and its field `b` is the row's operand byte if it has one. -/
def Statement (i : Instr) : Prop :=
  encode i &&& tableMask i = tableMatch i ∧ (∀ b, operandByte i = some b → fieldB (encode i) = b) ∧ i.wf = true

/-- The fixed bits of a canonical BYTE word. -/
theorem byteWord_row (b : Byte) : byteWord b &&& 0x300#10 = 0x100#10 := by
  apply BitVec.eq_of_getLsbD_eq
  intro k hk
  by_cases h8 : k = 8
  · subst h8; simp [byteWord]
  by_cases h9 : k = 9
  · subst h9; simp [byteWord]
  have hm : (0x300#10).getLsbD k = false := by interval_cases k <;> first | rfl | omega
  have h1 : (0x100#10).getLsbD k = false := by interval_cases k <;> first | rfl | omega
  rw [BitVec.getLsbD_and, hm, h1, Bool.and_false]

theorem reset : Statement .reset := by simp [Statement, encode, tableMask, tableMatch, operandByte, Instr.wf]

theorem idle : Statement .idle := by simp [Statement, encode, tableMask, tableMatch, operandByte, Instr.wf]

theorem byteRefused (b : Byte) : Statement (.byteRefused b) :=
  ⟨byteWord_row b, fun _ h => by cases h; exact fieldB_byteWord b, rfl⟩

theorem byteMagic0 (b : Byte) : Statement (.byteMagic0 b) :=
  ⟨byteWord_row b, fun _ h => by cases h; exact fieldB_byteWord b, rfl⟩

theorem byteMagic1 (b : Byte) : Statement (.byteMagic1 b) :=
  ⟨byteWord_row b, fun _ h => by cases h; exact fieldB_byteWord b, rfl⟩

theorem byteP25l (b : Byte) : Statement (.byteP25l b) :=
  ⟨byteWord_row b, fun _ h => by cases h; exact fieldB_byteWord b, rfl⟩

theorem byteP25h (b : Byte) : Statement (.byteP25h b) :=
  ⟨byteWord_row b, fun _ h => by cases h; exact fieldB_byteWord b, rfl⟩

theorem byteP10l (b : Byte) : Statement (.byteP10l b) :=
  ⟨byteWord_row b, fun _ h => by cases h; exact fieldB_byteWord b, rfl⟩

theorem byteP10h (b : Byte) : Statement (.byteP10h b) :=
  ⟨byteWord_row b, fun _ h => by cases h; exact fieldB_byteWord b, rfl⟩

theorem byteRsv0 (b : Byte) : Statement (.byteRsv0 b) :=
  ⟨byteWord_row b, fun _ h => by cases h; exact fieldB_byteWord b, rfl⟩

theorem byteRsv1 (b : Byte) : Statement (.byteRsv1 b) :=
  ⟨byteWord_row b, fun _ h => by cases h; exact fieldB_byteWord b, rfl⟩

theorem byteCksum (b : Byte) : Statement (.byteCksum b) :=
  ⟨byteWord_row b, fun _ h => by cases h; exact fieldB_byteWord b, rfl⟩

theorem byteTail (b : Byte) : Statement (.byteTail b) :=
  ⟨byteWord_row b, fun _ h => by cases h; exact fieldB_byteWord b, rfl⟩

end Sys2Proof.Laws.TableRow
end

