-- ==== Sys2Proof/Laws/Run.lean ====
section
/-! SUPPORT. Runs: one step at a time, and one part after another. -/

namespace Sys2Proof.Machine

@[simp] theorem runSteps_zero (s : State) : runSteps 0 s = .next s := rfl

/-- The first step of a run. -/
theorem runSteps_succ_of_next {s t : State} (k : Nat) (h : step s = .next t) : runSteps (k + 1) s = runSteps k t := by
  simp only [runSteps, Host.Core.run]
  rw [show Sys2Proof.core.step s = .next t from h]

/-- A run that goes through `k + 1` steps took its first. -/
theorem runSteps_succ_next {s t : State} {k : Nat} (h : runSteps (k + 1) s = .next t) :
    ∃ u, step s = .next u ∧ runSteps k u = .next t := by
  cases hs : step s with
  | next u => exact ⟨u, rfl, by rw [runSteps_succ_of_next k hs] at h; exact h⟩
  | fault r =>
    simp only [runSteps, Host.Core.run] at h
    rw [show Sys2Proof.core.step s = .fault r from hs] at h
    cases h
  | refused r =>
    simp only [runSteps, Host.Core.run] at h
    rw [show Sys2Proof.core.step s = .refused r from hs] at h
    cases h

/-- A run of `j + k` steps is a run of `k` steps from where `j` steps led. -/
theorem runSteps_add {j k : Nat} {s t : State} (h : runSteps j s = .next t) : runSteps (j + k) s = runSteps k t := by
  induction j generalizing s with
  | zero => cases h; rw [Nat.zero_add]
  | succ j ih =>
    obtain ⟨u, hu, h'⟩ := runSteps_succ_next h
    rw [show j + 1 + k = j + k + 1 by omega, runSteps_succ_of_next _ hu]
    exact ih h'

/-- A good run takes its first step, and goes on as a good run. -/
theorem goodRun_succ_iff (k : Nat) (s : State) : GoodRun (k + 1) s ↔ ∃ u, step s = .next u ∧ GoodRun k u := by
  constructor
  · rintro ⟨t, h⟩
    obtain ⟨u, hu, h'⟩ := runSteps_succ_next h
    exact ⟨u, hu, t, h'⟩
  · rintro ⟨u, hu, t, h⟩
    exact ⟨t, by rw [runSteps_succ_of_next k hu, h]⟩

/-- What holds at the start and is kept by every step holds at the end of a run. -/
theorem runSteps_keeps {P : State → Prop} (keep : ∀ s t, P s → step s = .next t → P t) {k : Nat} {s t : State}
    (hs : P s) (h : runSteps k s = .next t) : P t := by
  induction k generalizing s with
  | zero => cases h; exact hs
  | succ k ih =>
    obtain ⟨u, hu, h'⟩ := runSteps_succ_next h
    exact ih (keep s u hs hu) h'

end Sys2Proof.Machine
end

