-- ==== Sys2Proof/Tests/Slice0.lean ====
section
/-! SUPPORT. The model's own tests, expected results from spec/95_test_vectors.md and the rules named, and one witness per
statement with hypotheses (a concrete state and operands that meet them all). -/

namespace Sys2Proof.Tests

open Sys2Proof.Machine

/-- The state an outcome leads to, if it is a next state. -/
def nextOf : Host.Outcome State Fault Refusal → Option State
  | .next s => some s
  | .fault _ => none
  | .refused _ => none

/-- The fault of an outcome. -/
def faultOf : Host.Outcome State Fault Refusal → Option Fault
  | .next _ => none
  | .fault f => some f
  | .refused _ => none

/-- The refusal of an outcome. -/
def refusalOf : Host.Outcome State Fault Refusal → Option Refusal
  | .next _ => none
  | .fault _ => none
  | .refused r => some r

/-- The result of `decode`'s bits. -/
def wordOf (nbits w : Nat) : Option Word :=
  match wordOfBits nbits w with
  | .ok v => some v
  | .error _ => none

/-- A reset state moved to a position, with these hidden registers. -/
def stateAt (idx : Pos) (hdrOk ckOk : Bool) (acc : Byte) (f25 f10 : Half) : State :=
  { State.reset with idx := idx, hdrOk := hdrOk, ckOk := ckOk, acc := acc, f25 := f25, f10 := f10 }

/-- The state after Scenario C: CHECKSUM_MISMATCH, halted. -/
def haltedState : State :=
  { State.reset with halted := true, resValid := true, status := .checksumMismatch }

/-- A state before the first RESET. -/
def unresetState : State := { State.reset with rstSeen := false, idx := 12#4, halted := true, pm25Raw := 7#16 }

/-- Scenario A's frame. -/
def frameA : Frame := #v[0xAA#8, 0xC0#8, 21#8, 0#8, 10#8, 0#8, 0#8, 0#8, 31#8, 0xAB#8]

/-- Scenario B's frame. -/
def frameB : Frame := #v[169#8, 0xC0#8, 21#8, 0#8, 10#8, 0#8, 0#8, 0#8, 31#8, 0xAB#8]

/-- Scenario C's frame. -/
def frameC : Frame := #v[0xAA#8, 0xC0#8, 21#8, 0#8, 10#8, 0#8, 0#8, 0#8, 30#8, 0xAB#8]

/-- The frame that tells the byte order apart (vectors 2.9). -/
def frameOrder : Frame := #v[0xAA#8, 0xC0#8, 0x34#8, 0x12#8, 0x12#8, 0x34#8, 0#8, 0#8, 0x8C#8, 0xAB#8]

/-- Every check fails (vectors 2.9): the header wins. -/
def frameAllWrong : Frame := #v[169#8, 0xC0#8, 21#8, 0#8, 10#8, 0#8, 0#8, 0#8, 30#8, 0xAC#8]

/-! ## Well-formedness smoke: an ill-formed term for each check -/

theorem test_wf_every_instruction : (Instr.byteTail 0xFF#8).wf = true ∧ Instr.reset.wf = true := by decide

theorem test_wf_word_has_ten_bits : wordBitsOk 1023 = true ∧ wordBitsOk 1024 = false := by decide

theorem test_wf_byte_literal : byteLiteralOk 255 = true ∧ byteLiteralOk 256 = false := by decide

theorem test_wf_idle_count : idleCountOk 1 = true ∧ idleCountOk 0 = false := by decide

theorem test_wf_frame_literals :
    frameLiteralsOk [1, 2, 3, 4, 5, 6, 7, 8, 9, 255] = true ∧
      frameLiteralsOk [1, 2, 3, 4, 5, 6, 7, 8, 9] = false ∧
      frameLiteralsOk [1, 2, 3, 4, 5, 6, 7, 8, 9, 256] = false := by decide

theorem test_wf_raw_literal : rawLiteralOk 65535 = true ∧ rawLiteralOk 65536 = false := by decide

/-! ## Decoding: words written out bit by bit (30_encoding R70 to R73, vectors 2.1) -/

theorem test_decode_reset :
    [0b1000000000#10, 0b1111111111#10, 0b1010101010#10].map decodeT = [.reset, .reset, .reset] := by decide

theorem test_decode_byte :
    [0b0110101010#10, 0b0100000000#10, 0b0111111111#10].map decodeT = [.byte 0xAA#8, .byte 0#8, .byte 0xFF#8] := by
  decide

theorem test_decode_idle : [0b0000000000#10, 0b0010101011#10].map decodeT = [.idle, .idle] := by decide

theorem test_decode_positions :
    [0#4, 1#4, 2#4, 3#4, 4#4, 5#4, 6#4, 7#4, 8#4, 9#4].map (fun p => decode true false p 0b0100011111#10) =
      [.instr (.byteMagic0 31#8), .instr (.byteMagic1 31#8), .instr (.byteP25l 31#8), .instr (.byteP25h 31#8),
        .instr (.byteP10l 31#8), .instr (.byteP10h 31#8), .instr (.byteRsv0 31#8), .instr (.byteRsv1 31#8),
        .instr (.byteCksum 31#8), .instr (.byteTail 31#8)] := by decide

theorem test_decode_no_row :
    decode true false 10#4 0b0100011111#10 = .unreachableIdx ∧ decode false true 12#4 0b0100011111#10 = .notReset ∧
      decode true true 12#4 0b0100011111#10 = .instr (.byteRefused 31#8) := by decide

theorem test_decode_table_word :
    decodeTableWord 16 0x3FF = some .reset ∧ decodeTableWord 16 0x0AB = some .idle ∧
      decodeTableWord 16 0x1C0 = some (.byteMagic0 0xC0#8) ∧ decodeTableWord 16 0x400 = none := by decide

theorem test_encode_canonical :
    encode .reset = 0x200#10 ∧ encode .idle = 0x000#10 ∧ encode (.byteTail 0xAB#8) = 0x1AB#10 := by decide

/-! ## One step of each instruction (vectors 2.2 to 2.7) -/

theorem test_reset_from_halted :
    (nextOf (exec .reset haltedState)).map (fun t => (outStat t, outInReady t, t.pm25Raw)) =
      some (0x00#8, true, 0#16) := by decide

theorem test_reset_word_with_a_byte :
    (nextOf (step { stateAt 4#4 true false 3#8 1#16 2#16 with inputs := [0x3AA#10] })).map (fun t => (t.idx, t.acc, t.f25)) =
      some (0#4, 0#8, 0#16) := by decide

theorem test_reset_before_first_reset :
    (nextOf (step { unresetState with inputs := [0x200#10] })).map (fun t => (t.rstSeen, t.idx, t.halted, t.pm25Raw)) =
      some (true, 0#4, false, 0#16) := by decide

theorem test_idle_keeps_position :
    (nextOf (step { stateAt 3#4 true false 21#8 21#16 0#16 with inputs := [0x0AB#10] })).map outStat =
      some 0x30#8 := by decide

theorem test_idle_before_first_reset :
    (nextOf (exec .idle unresetState)).map (fun t => (t.rstSeen, t.idx, t.pm25Raw)) = some (false, 12#4, 7#16) := by
  decide

theorem test_refused_while_halted :
    (nextOf (step { haltedState with inputs := [0x1AA#10] })).map (fun t => (outStat t, outInReady t)) =
      some (0x0F#8, false) := by decide

theorem test_byte_before_first_reset :
    faultOf (step { unresetState with inputs := [0x1AA#10] }) = some .notReset := by decide

theorem test_byte_at_unreachable_position :
    refusalOf (step { stateAt 10#4 true true 0#8 0#16 0#16 with inputs := [0x1AA#10] }) = some .unreachableIdx := by
  decide

theorem test_end_of_run : refusalOf (step State.reset) = some .endOfRun := by decide

theorem test_magic0 :
    [0xAA#8, 0xA9#8, 0xAB#8, 0x00#8].map (fun b => (nextOf (exec (.byteMagic0 b) State.reset)).map fun t => (t.hdrOk, t.idx)) =
      [some (true, 1#4), some (false, 1#4), some (false, 1#4), some (false, 1#4)] := by decide

theorem test_magic0_after_good_frame :
    (nextOf (exec (.byteMagic0 0xAA#8) { State.reset with resValid := true, status := .ok, pm25Raw := 21#16 })).map
      (fun t => (outStat t, t.pm25Raw)) = some (0x11#8, 21#16) := by decide

theorem test_magic1 :
    [(true, 0xC0#8), (true, 0xC1#8), (false, 0xC0#8), (true, 0xAA#8)].map
      (fun p => (nextOf (exec (.byteMagic1 p.2) (stateAt 1#4 p.1 false 0#8 0#16 0#16))).map fun t => (t.hdrOk, t.idx)) =
      [some (true, 2#4), some (false, 2#4), some (false, 2#4), some (false, 2#4)] := by decide

theorem test_p25l_restarts_sum :
    (nextOf (exec (.byteP25l 0xD2#8) (stateAt 2#4 true false 0x55#8 0xABCD#16 0#16))).map (fun t => (t.acc, t.f25, t.idx)) =
      some (0xD2#8, 0xABD2#16, 3#4) := by decide

theorem test_p25h_wraps :
    (nextOf (exec (.byteP25h 0x01#8) (stateAt 3#4 true false 0xFF#8 0xABCD#16 0#16))).map (fun t => (t.acc, t.f25, t.idx)) =
      some (0x00#8, 0x01CD#16, 4#4) := by decide

theorem test_p10l :
    (nextOf (exec (.byteP10l 0x37#8) (stateAt 4#4 true false 0xD6#8 0x04D2#16 0xFFFF#16))).map
      (fun t => (t.acc, t.f25, t.f10, t.idx)) = some (0x0D#8, 0x04D2#16, 0xFF37#16, 5#4) := by decide

theorem test_p10h :
    (nextOf (exec (.byteP10h 0x02#8) (stateAt 5#4 true false 0x0D#8 0x04D2#16 0xFF37#16))).map
      (fun t => (t.acc, t.f10, t.idx)) = some (0x0F#8, 0x0237#16, 6#4) := by decide

theorem test_rsv0 :
    (nextOf (exec (.byteRsv0 0xFF#8) (stateAt 6#4 true false 0x1F#8 21#16 10#16))).map (fun t => (t.acc, t.f25, t.f10, t.idx)) =
      some (0x1E#8, 21#16, 10#16, 7#4) := by decide

theorem test_rsv1 :
    (nextOf (exec (.byteRsv1 0x01#8) (stateAt 7#4 true false 0x1E#8 21#16 10#16))).map (fun t => (t.acc, t.f25, t.f10, t.idx)) =
      some (0x1F#8, 21#16, 10#16, 8#4) := by decide

theorem test_cksum :
    [(0x1F#8, 0x1F#8), (0x1F#8, 0x1E#8), (0xFF#8, 0xFF#8), (0x00#8, 0x00#8), (0x00#8, 0xFF#8), (0xFA#8, 0xFA#8)].map
      (fun p => (nextOf (exec (.byteCksum p.2) (stateAt 8#4 true false p.1 0#16 0#16))).map fun t => t.ckOk) =
      [some true, some false, some true, some true, some false, some true] := by decide

/-- Vectors 2.7, the eight rows in order. -/
theorem test_tail_verdicts :
    [(true, 0xAB#8, true), (true, 0xAB#8, false), (true, 0xAC#8, true), (true, 0xAC#8, false), (false, 0xAB#8, true),
        (false, 0xAB#8, false), (false, 0xAC#8, true), (false, 0xAC#8, false)].map
      (fun p => (nextOf (exec (.byteTail p.2.1) (stateAt 9#4 p.1 p.2.2 31#8 0x0015#16 0x000A#16))).map
        fun t => (outStat t, t.pm25Raw, t.pm10Raw, outInReady t)) =
      [some (0x05#8, 21#16, 10#16, true), some (0x0F#8, 0#16, 0#16, false)] ++
        List.replicate 6 (some (0x0E#8, 0#16, 0#16, false)) := by decide

theorem test_with_fetch_word :
    (nextOf (step (State.reset.withFetchWord 16 0x1AA))).map (fun t => (t.hdrOk, t.idx, t.inputs)) =
      some (true, 1#4, []) := by decide

/-! ## The scaler (vectors 2.8) and the frame functions (vectors 2.9) -/

theorem test_scale_binary64 :
    [0#16, 1#16, 2#16, 3#16, 5#16, 10#16, 21#16, 99#16, 255#16].map (fun r => (scale .binary64 r).toNat) =
        [0x0000000000000000, 0x3FB999999999999A, 0x3FC999999999999A, 0x3FD3333333333333,
          0x3FE0000000000000, 0x3FF0000000000000, 0x4000CCCCCCCCCCCD, 0x4023CCCCCCCCCCCD,
          0x4039800000000000] ∧
      [256#16, 567#16, 999#16, 1000#16, 1234#16, 9999#16, 65534#16, 65535#16].map (fun r => (scale .binary64 r).toNat) =
        [0x403999999999999A, 0x404C59999999999A, 0x4058F9999999999A, 0x4059000000000000,
          0x405ED9999999999A, 0x408F3F3333333333, 0x40B9996666666666, 0x40B9998000000000] := by
  decide +kernel

theorem test_scale_binary32 :
    [0#16, 1#16, 2#16, 3#16, 5#16, 10#16, 21#16, 99#16, 255#16].map (fun r => (scale .binary32 r).toNat) =
        [0x00000000, 0x3DCCCCCD, 0x3E4CCCCD, 0x3E99999A, 0x3F000000, 0x3F800000, 0x40066666,
          0x411E6666, 0x41CC0000] ∧
      [256#16, 567#16, 999#16, 1000#16, 1234#16, 9999#16, 65534#16, 65535#16].map (fun r => (scale .binary32 r).toNat) =
        [0x41CCCCCD, 0x4262CCCD, 0x42C7CCCD, 0x42C80000, 0x42F6CCCD, 0x4479F99A, 0x45CCCB33,
          0x45CCCC00] := by
  decide +kernel

theorem test_decode_good_frames :
    decodeFrame Config.defaultFloatFmt frameA =
        .measurement 21#16 10#16 0x4000CCCCCCCCCCCD#64 0x3FF0000000000000#64 ∧
      framePm25Raw frameOrder = 0x1234#16 ∧ framePm10Raw frameOrder = 0x3412#16 ∧
      outcomeIsOk (decodeFrame .binary32 frameOrder) = true := by
  decide +kernel

theorem test_decode_bad_frames :
    decodeFrame .binary64 frameB = .invalidHeader ∧ decodeFrame .binary64 frameC = .checksumMismatch ∧
      decodeFrame .binary64 frameAllWrong = .invalidHeader := by
  decide +kernel

/-! ## Stimulus syntax (30_encoding R81, R82) -/

/-- The words of an answer of the transcriber. -/
def wordsOf : Except StimulusError (List Word) → Option (List Word)
  | .ok ws => some ws
  | .error _ => none

/-- "`good 21, 10` expands to `frame 0xAA, 0xC0, 21, 0, 10, 0, 0, 0, 31, 0xAB`, which is the source's Scenario A." -/
theorem test_good_is_scenario_a : wordsOf (stmtWords (.good 21 10 0 0)) = some (frameWords frameA) := by decide +kernel

/-- The lines `reset ; 200`, `byte 0xC0` and `idle 2`. -/
theorem test_transcribe :
    wordsOf (transcribe
      (['r', 'e', 's', 'e', 't', ' ', ';', ' ', '2', '0', '0', '\n', 'b', 'y', 't', 'e', ' ', '0', 'x', 'C', '0', '\n'] ++
        ['i', 'd', 'l', 'e', ' ', '2'])) = some [0x200#10, 0x1C0#10, 0x000#10, 0x000#10] := by
  decide +kernel

/-- `byte 256` is refused. -/
theorem test_transcribe_refuses :
    wordsOf (transcribe ['b', 'y', 't', 'e', ' ', '2', '5', '6']) = none := by
  decide +kernel

/-! ## Witnesses: concrete states and operands that meet all the hypotheses of a statement -/

theorem witness_CanonicalWordsAndIgnoredBits :
    operandByte (.byteTail 0xAB#8) = some 0xAB#8 ∧ (0x3FF#10).getLsbD 9 = (0x300#10).getLsbD 9 ∧
      (0x3FF#10).getLsbD 8 = (0x300#10).getLsbD 8 ∧
      ((0x3FF#10).getLsbD 9 = false → (0x3FF#10).getLsbD 8 = true → (0x3FF#10).setWidth 8 = (0x300#10).setWidth 8) := by
  decide

theorem witness_ByteSelectsMicroOperation :
    (0x1AB#10).getLsbD 9 = false ∧ (0x1AB#10).getLsbD 8 = true ∧ (0x1AB#10).setWidth 8 = 0xAB#8 ∧ 9 < (10#4).toNat := by
  decide

theorem witness_DecodeOfEncodeUnderGuard :
    (Instr.byteTail 0xAB#8).wf = true ∧ tableGuard true false 9#4 (.byteTail 0xAB#8) = true ∧
      tableGuard true true 0#4 (.byteRefused 0xFF#8) = true ∧ tableGuard false true 15#4 .reset = true := by decide

/-- Each clause: a row, a BYTE before reset, a BYTE at position 10, no word. -/
theorem witness_StepRunsDecodedInstruction :
    decode true false 0#4 0x1AA#10 = .instr (.byteMagic0 0xAA#8) ∧ decode false false 0#4 0x1AA#10 = .notReset ∧
      decode true false 10#4 0x1AA#10 = .unreachableIdx ∧ State.reset.inputs = [] ∧
      { State.reset with inputs := [0x1AA#10] }.inputs = 0x1AA#10 :: [] := by decide

theorem witness_EveryWordRunsAfterReset :
    (State.reset.setInputs [0x1AA#10]).Inv ∧ (haltedState.setInputs [0x1AA#10]).Inv ∧
      (haltedState.setInputs [0x1AA#10]).inputs = 0x1AA#10 :: [] :=
  ⟨by decide, by decide, by decide⟩

theorem witness_ByteRowStopsOutsideGuard :
    operandByte (.byteMagic0 1#8) = some 1#8 ∧
      tableGuard unresetState.rstSeen unresetState.halted unresetState.idx (.byteMagic0 1#8) = false ∧
      tableGuard true false 15#4 (.byteMagic0 1#8) = false ∧ tableGuard true false 9#4 (.byteMagic0 1#8) = false ∧
      tableGuard true true 0#4 (.byteMagic0 1#8) = false := by decide

theorem witness_ResetWritesEveryRegister : (0x3AA#10).getLsbD 9 = true := by decide

theorem witness_IdleChangesNoRegister :
    State.reset.rstSeen = true ∧ (0x0AB#10).getLsbD 9 = false ∧ (0x0AB#10).getLsbD 8 = false := by decide

theorem witness_RefusedByteChangesNothing : haltedState.rstSeen = true ∧ haltedState.halted = true := by decide

theorem witness_AcceptanceCondition : State.reset.rstSeen = true ∧ accepts State.reset 0x1AA#10 = true := by decide

/-- Each clause: the last position, RESET, a byte while halted. -/
theorem witness_PositionSequencing :
    ((nextOf (step { stateAt 9#4 true true 0#8 0#16 0#16 with inputs := [0x1AB#10] })).map fun t => t.idx) = some 0#4 ∧
      ((nextOf (step { stateAt 8#4 true true 0#8 0#16 0#16 with inputs := [0x1AB#10] })).map fun t => t.idx) = some 9#4 ∧
      ((nextOf (step { stateAt 4#4 true true 0#8 0#16 0#16 with inputs := [0x3AB#10] })).map fun t => t.idx) = some 0#4 ∧
      ((nextOf (step { haltedState with inputs := [0x1AB#10] })).map fun t => t.idx) = some 0#4 := by decide

/-- The guard of each position's statement, and each clause of the tail's. -/
theorem witness_positions :
    ∀ p ∈ [0#4, 1#4, 2#4, 3#4, 4#4, 5#4, 6#4, 7#4, 8#4, 9#4],
      (stateAt p true true 0#8 0#16 0#16).rstSeen = true ∧ (stateAt p true true 0#8 0#16 0#16).halted = false ∧
        (stateAt p true true 0#8 0#16 0#16).idx = p := by decide

theorem witness_Magic0StartsHeaderMatch :
    State.reset.rstSeen = true ∧ State.reset.halted = false ∧ State.reset.idx = 0#4 := by decide

theorem witness_Magic1ContinuesHeaderMatch :
    (stateAt 1#4 true false 0#8 0#16 0#16).rstSeen = true ∧ (stateAt 1#4 true false 0#8 0#16 0#16).halted = false ∧
      (stateAt 1#4 true false 0#8 0#16 0#16).idx = 1#4 := by decide

theorem witness_P25lRestartsSumAndFillsLowByte :
    (stateAt 2#4 true false 9#8 0#16 0#16).rstSeen = true ∧ (stateAt 2#4 true false 9#8 0#16 0#16).halted = false ∧
      (stateAt 2#4 true false 9#8 0#16 0#16).idx = 2#4 := by decide

theorem witness_P25hAddsAndFillsHighByte :
    (stateAt 3#4 true false 9#8 0#16 0#16).rstSeen = true ∧ (stateAt 3#4 true false 9#8 0#16 0#16).halted = false ∧
      (stateAt 3#4 true false 9#8 0#16 0#16).idx = 3#4 := by decide

theorem witness_P10lAddsAndFillsLowByte :
    (stateAt 4#4 true false 9#8 0#16 0#16).rstSeen = true ∧ (stateAt 4#4 true false 9#8 0#16 0#16).halted = false ∧
      (stateAt 4#4 true false 9#8 0#16 0#16).idx = 4#4 := by decide

theorem witness_P10hAddsAndFillsHighByte :
    (stateAt 5#4 true false 9#8 0#16 0#16).rstSeen = true ∧ (stateAt 5#4 true false 9#8 0#16 0#16).halted = false ∧
      (stateAt 5#4 true false 9#8 0#16 0#16).idx = 5#4 := by decide

theorem witness_ReservedBytesOnlySummed :
    (stateAt 6#4 true false 9#8 0#16 0#16).rstSeen = true ∧ (stateAt 6#4 true false 9#8 0#16 0#16).halted = false ∧
      (stateAt 6#4 true false 9#8 0#16 0#16).idx = 6#4 ∧ (stateAt 7#4 true false 9#8 0#16 0#16).rstSeen = true ∧
      (stateAt 7#4 true false 9#8 0#16 0#16).halted = false ∧ (stateAt 7#4 true false 9#8 0#16 0#16).idx = 7#4 := by
  decide

theorem witness_CksumComparesWithAccumulator :
    (stateAt 8#4 true false 9#8 0#16 0#16).rstSeen = true ∧ (stateAt 8#4 true false 9#8 0#16 0#16).halted = false ∧
      (stateAt 8#4 true false 9#8 0#16 0#16).idx = 8#4 := by decide

/-- Each clause: a wrong tail, a wrong checksum, a good frame. -/
theorem witness_TailCompletesFrame :
    (stateAt 9#4 true true 9#8 0#16 0#16).rstSeen = true ∧ (stateAt 9#4 true true 9#8 0#16 0#16).halted = false ∧
      (stateAt 9#4 true true 9#8 0#16 0#16).idx = 9#4 ∧
      ¬((stateAt 9#4 true true 9#8 0#16 0#16).hdrOk = true ∧ 0xAC#8 = 0xAB#8) ∧
      (stateAt 9#4 true false 9#8 0#16 0#16).hdrOk = true ∧ (stateAt 9#4 true false 9#8 0#16 0#16).ckOk = false ∧
      (stateAt 9#4 true true 9#8 0#16 0#16).hdrOk = true ∧ (stateAt 9#4 true true 9#8 0#16 0#16).ckOk = true := by decide

theorem witness_StatusWordAfterCompletion :
    (stateAt 9#4 true true 9#8 0#16 0#16).idx = 9#4 ∧
      ((nextOf (exec (.byteTail 0xAC#8) (stateAt 9#4 true true 9#8 0#16 0#16))).map fun t => outStat t) = some 0x0E#8 := by
  decide

/-- Each register is written by some row. -/
theorem witness_RegisterWriters :
    ((nextOf (exec (.byteMagic0 0xAA#8) State.reset)).map fun t => (t.idx, t.hdrOk)) = some (1#4, true) ∧
      ((nextOf (exec (.byteTail 0xAC#8) (stateAt 9#4 true true 9#8 0#16 0#16))).map fun t => (t.halted, t.resValid)) =
        some (true, true) ∧
      ((nextOf (exec .reset unresetState)).map fun t => (t.rstSeen, t.halted)) = some (true, false) := by decide

theorem witness_HaltedSetByErrorClearedByReset :
    ((nextOf (exec (.byteTail 0xAC#8) (stateAt 9#4 true true 9#8 0#16 0#16))).map fun t => t.halted) = some true ∧
      (stateAt 9#4 true true 9#8 0#16 0#16).halted = false ∧ haltedState.halted = true ∧
      ((nextOf (exec .reset haltedState)).map fun t => t.halted) = some false := by decide

theorem witness_RstSeenSetByResetNeverCleared :
    ((nextOf (step { State.reset with inputs := [0x000#10] })).map fun t => t.rstSeen) = some true := by decide

theorem witness_ResValidSetByCompletion :
    ((nextOf (exec .reset haltedState)).map fun t => t.resValid) = some false ∧
      ((nextOf (exec (.byteTail 0xAB#8) (stateAt 9#4 true true 9#8 0#16 0#16))).map fun t => t.resValid) = some true ∧
      ((nextOf (exec (.byteMagic0 0xAA#8) { State.reset with resValid := true })).map fun t => t.resValid) = some false ∧
      ((nextOf (exec (.byteRefused 1#8) haltedState)).map fun t => t.resValid) = some true := by decide

theorem witness_StepKeepsInvariants :
    ((stateAt 9#4 true false 9#8 0#16 0#16).setInputs [0x1AB#10]).Inv ∧
      ((nextOf (step { stateAt 9#4 true false 9#8 0#16 0#16 with inputs := [0x1AB#10] })).map fun t => t.halted) =
        some true := by decide

theorem witness_InvariantsAfterAnyReset :
    (0x200#10).getLsbD 9 = true ∧
      ((nextOf (runSteps 2 { unresetState with inputs := [0x200#10, 0x1AA#10] })).map fun t => t.idx) = some 1#4 := by
  decide

theorem witness_ErrorCodeOnlyWhileHalted :
    (haltedState.status = .invalidHeader ∨ haltedState.status = .checksumMismatch → haltedState.halted = true) ∧
      ((nextOf (step { haltedState with inputs := [0x1AA#10] })).map fun t => t.status) = some .checksumMismatch := by
  decide

theorem witness_StatusWordPacksRegisters : haltedState.rstSeen = true ∧ outStat haltedState = 0x0F#8 := by decide

theorem witness_InReadyIsNotHalted :
    haltedState.rstSeen = true ∧ outInReady haltedState = false ∧ unresetState.rstSeen = false := by decide

theorem witness_ScaledOutputsFollowRawRegisters : State.reset.rstSeen = true := by decide

theorem witness_OutputsAfterReset : (0x2FF#10).getLsbD 9 = true := by decide

theorem witness_ResultLatency :
    (stateAt 9#4 true true 9#8 0#16 0#16).Inv ∧ (stateAt 9#4 true true 9#8 0#16 0#16).idx = 9#4 := by decide

theorem witness_ResultsHoldUntilNextCompletion :
    (0x1AA#10).getLsbD 9 = false ∧
      ¬((0x1AA#10).getLsbD 8 = true ∧ State.reset.halted = false ∧ State.reset.idx = 9#4) ∧
      ((nextOf (step { State.reset with inputs := [0x1AA#10] })).map fun t => t.idx) = some 1#4 := by decide

theorem witness_ScaleIsNearestTiesToEven : floatFinite .binary32 0x40066666#32 = true := by decide +kernel

theorem witness_ScaleSignAndRange : (1#16 : Half) ≠ 0#16 := by decide

theorem witness_ScaleStrictlyIncreasing : (65534#16 : Half).toNat < (65535#16 : Half).toNat := by decide

/-- Each clause: Scenario B, Scenario C, Scenario A. -/
theorem witness_DecodeValidationOrder :
    ¬(frameB[0] = 0xAA#8 ∧ frameB[1] = 0xC0#8 ∧ frameB[9] = 0xAB#8) ∧
      (frameC[0] = 0xAA#8 ∧ frameC[1] = 0xC0#8 ∧ frameC[9] = 0xAB#8 ∧ frameC[8].toNat ≠ (21 + 0 + 10 + 0 + 0 + 0) % 256) ∧
      (frameA[0] = 0xAA#8 ∧ frameA[1] = 0xC0#8 ∧ frameA[9] = 0xAB#8 ∧ frameA[8].toNat = (21 + 0 + 10 + 0 + 0 + 0) % 256) := by
  decide

theorem witness_TenBytesGiveDecode :
    State.reset.rstSeen = true ∧ State.reset.halted = false ∧ State.reset.idx = 0#4 := by decide

/-- A good frame, an IDLE, then Scenario C's frame. -/
def wordsOfAThenC : List Word := frameWords frameA ++ 0x000#10 :: frameWords frameC

theorem witness_RunAgreesWithDecode :
    (0x200#10).getLsbD 9 = true ∧ noReset wordsOfAThenC = true ∧
      offeredBytes wordsOfAThenC = [frameA].flatMap (fun F => F.toList) ++ frameC.toList ∧
      (∀ F ∈ [frameA], outcomeIsOk (decodeFrame .binary64 F) = true) ∧
      outcomeIsOk (decodeFrame .binary64 frameC) = false := by
  refine ⟨by decide, by decide, by decide, ?_, by decide⟩
  intro F hF
  rw [List.mem_singleton] at hF
  subst hF
  decide

/-- A good frame, an IDLE, then the frame that tells the byte order apart: the last frame is OK. -/
def wordsOfAThenOrder : List Word := frameWords frameA ++ 0x000#10 :: frameWords frameOrder

theorem witness_RunAgreesWithDecode_lastOk :
    (0x3FF#10).getLsbD 9 = true ∧ noReset wordsOfAThenOrder = true ∧
      offeredBytes wordsOfAThenOrder = [frameA].flatMap (fun F => F.toList) ++ frameOrder.toList ∧
      (∀ F ∈ [frameA], outcomeIsOk (decodeFrame .binary32 F) = true) ∧
      decodeFrame .binary32 frameOrder =
        .measurement 0x1234#16 0x3412#16 (scale .binary32 0x1234#16) (scale .binary32 0x3412#16) := by
  refine ⟨by decide, by decide, by decide, ?_, by decide +kernel⟩
  intro F hF
  rw [List.mem_singleton] at hF
  subst hF
  decide

theorem witness_OutcomeDependsOnBytesAlone :
    (0x200#10).getLsbD 9 = true ∧ (0x3FF#10).getLsbD 9 = true ∧ noReset [0x1AA#10] = true ∧
      noReset [0x0AB#10, 0x1AA#10, 0x000#10] = true ∧
      offeredBytes [0x1AA#10] = offeredBytes [0x0AB#10, 0x1AA#10, 0x000#10] := by decide

theorem witness_HaltedUntilReset :
    haltedState.rstSeen = true ∧ haltedState.halted = true ∧ noReset [0x1AB#10, 0x000#10] = true := by decide

theorem witness_PositionCountsAcceptedBytes :
    (0x200#10).getLsbD 9 = true ∧ noReset [0x1AA#10, 0x000#10] = true ∧
      ((nextOf (runSteps 3 { unresetState with inputs := [0x200#10, 0x1AA#10, 0x000#10] })).map
        fun t => (t.halted, t.idx)) = some (false, 1#4) := by decide

theorem witness_GoodStatementMakesGoodFrame :
    (65535 : Nat) ≤ 65535 ∧ (10 : Nat) ≤ 65535 ∧ (255 : Nat) ≤ 255 ∧ (0 : Nat) ≤ 255 := by decide

/-- Each clause at its boundary: 255 and 256, 1, nine literals, a literal of 256. -/
theorem witness_StatementsAndRefusedLiterals :
    (255 : Nat) ≤ 255 ∧ (255 : Nat) < 256 ∧ (1 : Nat) ≤ 1 ∧ [1, 2, 3, 4, 5, 6, 7, 8, 9].length ≠ 10 ∧
      ∃ n ∈ [1, 2, 3, 4, 5, 6, 7, 8, 9, 256], 255 < n := by decide

end Sys2Proof.Tests
end

section
/-! PROOF. A step is the meaning of the row its word selects (00_scope R9, 40_transactions R102): one equation of `step` per
answer of the decoder, and from them O7. -/

namespace Sys2Proof.Machine

/-- The row that the word selects from the pre-step registers is executed with the word consumed. -/
theorem step_of_decode_instr {s : State} {w : Word} {rest : List Word} {i : Instr} (hin : s.inputs = w :: rest)
    (hd : decode s.rstSeen s.halted s.idx w = .instr i) : step s = exec i (s.setInputs rest) := by
  simp only [step_cons hin, hd]

/-- A BYTE before the first RESET stops the step by name (10_state R38). -/
theorem step_of_decode_notReset {s : State} {w : Word} {rest : List Word} (hin : s.inputs = w :: rest)
    (hd : decode s.rstSeen s.halted s.idx w = .notReset) : step s = .fault .notReset := by
  simp only [step_cons hin, hd]

/-- A BYTE at a position 10..15 stops the step by name (30_encoding R73). -/
theorem step_of_decode_unreachableIdx {s : State} {w : Word} {rest : List Word} (hin : s.inputs = w :: rest)
    (hd : decode s.rstSeen s.halted s.idx w = .unreachableIdx) : step s = .refused .unreachableIdx := by
  simp only [step_cons hin, hd]

/-- Settles O7: one equation of `step` for each answer of the decoder, and `step_nil` where no word is offered. -/
theorem stepRunsDecodedInstruction : Obligations.StepRunsDecodedInstruction := by
  refine ⟨fun s w rest hin => ⟨?instr, ?notReset, ?unreachableIdx⟩, fun s hnil => step_nil hnil⟩
  case instr => exact fun i _ hd => step_of_decode_instr hin hd
  case notReset => exact step_of_decode_notReset hin
  case unreachableIdx => exact step_of_decode_unreachableIdx hin

end Sys2Proof.Machine
end

section
/-! PROOF. What an instruction leaves visible, in five cases (the report of a frame changes only in RESET and at the tail), and
from them the invariants of 10_state R40: O33, O32 and O34. -/

namespace Sys2Proof.Machine

/-- The registers that report a frame (10_state R26, R33 to R35) and `rst_seen` are as before. -/
structure SameReport (s t : State) : Prop where
  rstSeen : t.rstSeen = s.rstSeen
  halted : t.halted = s.halted
  status : t.status = s.status
  pm25Raw : t.pm25Raw = s.pm25Raw
  pm10Raw : t.pm10Raw = s.pm10Raw

/-- Everything an instruction can leave visible: a RESET, an IDLE, a refused byte, a byte before the tail, or a completion. -/
theorem exec_next_cases {i : Instr} {s t : State} (h : exec i s = .next t) :
    t = resetRegisters s ∨ t = passStep s ∨ (s.halted = true ∧ t = s) ∨
      (s.halted = false ∧ s.idx.toNat < 9 ∧ t.idx = s.idx + 1#4 ∧
        t.resValid = (s.resValid && s.idx != 0#4) ∧ SameReport s t) ∨
      ∃ b, s.rstSeen = true ∧ s.halted = false ∧ s.idx = 9#4 ∧ t = (completeFrame (tailMatches b) s).setIdx 0#4 := by
  cases i
  case reset => exact .inl ((exec_reset_iff s t).1 h)
  case idle => exact .inr (.inl ((exec_idle_iff s t).1 h))
  case byteRefused b => exact .inr (.inr (.inl ((exec_byteRefused_iff b s t).1 h).2))
  case byteTail b => exact .inr (.inr (.inr (.inr ⟨b, (exec_byteTail_iff b s t).1 h⟩)))
  all_goals
    refine .inr (.inr (.inr (.inl ?_)))
    simp only [exec_byteMagic0_iff, exec_byteMagic1_iff, exec_byteP25l_iff, exec_byteP25h_iff, exec_byteP10l_iff,
      exec_byteP10h_iff, exec_byteRsv0_iff, exec_byteRsv1_iff, exec_byteCksum_iff] at h
    obtain ⟨-, hh, hi, rfl⟩ := h
    exact ⟨hh, by simp [hi], by simp [hi], by simp [hi], rfl, rfl, rfl, rfl, rfl⟩

/-- A step executes the row its word selects, with the word consumed. -/
theorem step_next_exec {s t : State} (h : step s = .next t) :
    ∃ w rest i, s.inputs = w :: rest ∧ decode s.rstSeen s.halted s.idx w = .instr i ∧
      exec i (s.setInputs rest) = .next t := by
  cases hin : s.inputs with
  | nil => rw [step_nil hin] at h; cases h
  | cons w rest =>
    cases hd : decode s.rstSeen s.halted s.idx w with
    | instr i => exact ⟨w, rest, i, rfl, hd, step_of_decode_instr hin hd ▸ h⟩
    | notReset => rw [step_of_decode_notReset hin hd] at h; cases h
    | unreachableIdx => rw [step_of_decode_unreachableIdx hin hd] at h; cases h

/-- Settles O32: at reset no frame is reported, nothing is current or halted, and both results are 0. -/
theorem resetStateMeetsInvariants : Obligations.ResetStateMeetsInvariants :=
  ⟨rfl, by decide, nofun, fun _ => ⟨rfl, rfl, rfl, rfl⟩, nofun, nofun, fun _ => ⟨rfl, rfl⟩⟩

/-- The invariants speak of the registers alone, and RESET sets every one of them. -/
theorem resetRegisters_inv (s : State) : (resetRegisters s).Inv := resetStateMeetsInvariants

/-- In RUN mode no result is current at a position other than 0 (R40, clause 5). -/
theorem resValid_only_at_zero {s : State} (hs : s.Inv) (hrun : s.halted = false) :
    (s.resValid && s.idx != 0#4) = false := by
  obtain ⟨-, -, -, -, -, hvalid, -⟩ := hs
  cases hv : s.resValid
  · rfl
  · simp [(hvalid hv hrun).1]

/-- A move in RUN mode to a legal position with no current result keeps R40 if it keeps the report. -/
theorem SameReport.inv {s t : State} (hst : SameReport s t) (hs : s.Inv) (hrun : s.halted = false)
    (hidx : t.idx.toNat ≤ 9) (hval : t.resValid = false) : t.Inv := by
  obtain ⟨hrst, -, -, hnone, -, -, honly⟩ := hs
  obtain ⟨erst, ehalted, estatus, epm25, epm10⟩ := hst
  have hhalted : t.halted = false := ehalted.trans hrun
  refine ⟨erst.trans hrst, hidx, ?haltedShows, ?noneShows, fun _ => hhalted, ?validIsOk, ?onlyOk⟩
  case haltedShows => simp [State.HaltedShows, hhalted]
  case validIsOk => simp [State.ValidIsOk, hval]
  case noneShows =>
    intro hn
    obtain ⟨-, -, h25, h10⟩ := hnone (estatus ▸ hn)
    exact ⟨hval, hhalted, epm25.trans h25, epm10.trans h10⟩
  case onlyOk =>
    intro hne
    obtain ⟨h25, h10⟩ := honly (estatus ▸ hne)
    exact ⟨epm25.trans h25, epm10.trans h10⟩

/-- Every completion, good or bad, leaves a state that meets R40, whatever the report of the frame before it. -/
theorem completeFrame_inv (tailOk : Bool) {s : State} (hrst : s.rstSeen = true) (hrun : s.halted = false) :
    ((completeFrame tailOk s).setIdx 0#4).Inv := by
  obtain ⟨-, hc⟩ | ⟨-, -, hc⟩ | ⟨-, -, hc⟩ := completeFrame_cases tailOk s <;>
    simp [hc, State.Inv, State.IdxLegal, State.HaltedShows, State.NoneShows, State.OkRuns, State.ValidIsOk,
      State.OnlyOkShowsValues, hrst, hrun]

/-- Every instruction keeps the invariants of R40. -/
theorem exec_keeps_inv {i : Instr} {s t : State} (hs : s.Inv) (h : exec i s = .next t) : t.Inv := by
  obtain rfl | rfl | ⟨-, ht⟩ | ⟨hrun, hlt, hidx, hval, hst⟩ | ⟨b, hrst, hrun, -, rfl⟩ := exec_next_cases h
  · exact resetRegisters_inv s
  · rwa [passStep_of_rstSeen hs.1]
  · exact ht ▸ hs
  · have hle : t.idx.toNat ≤ 9 := by rw [hidx]; bv_omega
    exact hst.inv hs hrun hle (hval.trans (resValid_only_at_zero hs hrun))
  · exact completeFrame_inv _ hrst hrun

/-- Settles O33: the row executed keeps the invariants, and taking its word touches no register. -/
theorem stepKeepsInvariants : Obligations.StepKeepsInvariants := by
  intro s t hs h
  obtain ⟨w, rest, i, -, -, hexec⟩ := step_next_exec h
  have hs' : (s.setInputs rest).Inv := hs
  exact exec_keeps_inv hs' hexec

/-- A word with `r = 1` resets the block, in every state. -/
theorem step_of_fieldR {s : State} {w : Word} {rest : List Word} (hin : s.inputs = w :: rest) (hr : fieldR w = true) :
    step s = .next (resetRegisters (s.setInputs rest)) := by
  have hd : decode s.rstSeen s.halted s.idx w = .instr .reset := by rw [decode, decodeT_of_fieldR w hr]
  rw [step_of_decode_instr hin hd, (exec_reset_iff _ _).2 rfl]

/-- The invariants hold wherever a run that begins with RESET ends. -/
theorem inv_of_run_from_reset {s t : State} {w : Word} {ws : List Word} {k : Nat} (hr : fieldR w = true)
    (h : runSteps (k + 1) { s with inputs := w :: ws } = .next t) : t.Inv := by
  rw [runSteps_succ_of_next k (step_of_fieldR rfl hr)] at h
  exact runSteps_keeps stepKeepsInvariants (resetRegisters_inv _) h

/-- Settles O34: the reset state meets the invariants and every step keeps them; the last clause is said there by the names
of the three codes other than OK. -/
theorem invariantsAfterAnyReset : Obligations.InvariantsAfterAnyReset := by
  intro s t w ws k hw h
  obtain ⟨-, hidx, hhalted, hnone, hok, hvalid, honly⟩ := inv_of_run_from_reset hw h
  refine ⟨hidx, hhalted, hnone, hok, hvalid, fun hst => honly fun hne => ?_⟩
  simp [hne] at hst

end Sys2Proof.Machine
end

section
/-! PROOF. Who writes a register: the write summary of 10_state section 5 (O28), and from it what sets and clears `halted`,
`rst_seen` and `res_valid` (O29, O30, O31). -/

namespace Sys2Proof.Machine

/-- A completion writes the report and makes it current, and nothing else (41_frame_bytes R129). -/
theorem completeFrame_writes_report (tailOk : Bool) (s : State) :
    ∃ st p25 p10 hlt, completeFrame tailOk s = ((s.setResult st p25 p10).setHalted hlt).setResValid true := by
  obtain ⟨-, h⟩ | ⟨-, -, h⟩ | ⟨-, -, h⟩ := completeFrame_cases tailOk s
  · exact ⟨_, _, _, true, h⟩
  · exact ⟨_, _, _, true, h⟩
  · exact ⟨.ok, s.f25, s.f10, s.halted, h⟩

/-- A completion that leaves the block halted reported one of the two frame errors (60_exceptions R193). -/
theorem completeFrame_error_of_halted {tailOk : Bool} {s : State} (hrun : s.halted = false)
    (h : (completeFrame tailOk s).halted = true) :
    (completeFrame tailOk s).status = .invalidHeader ∨ (completeFrame tailOk s).status = .checksumMismatch := by
  obtain ⟨-, hc⟩ | ⟨-, -, hc⟩ | ⟨-, -, hc⟩ := completeFrame_cases tailOk s
  · exact .inl (by simp [hc])
  · exact .inr (by simp [hc])
  · simp [hc, hrun] at h

/-- Settles O28: the written state of each row, register by register. -/
theorem registerWriters : Obligations.RegisterWriters := by
  intro i s t h
  cases i
  case reset =>
    obtain rfl := (exec_reset_iff s t).1 h
    simp
  case idle =>
    obtain rfl := (exec_idle_iff s t).1 h
    obtain ⟨n, hn⟩ := passStep_eq s
    have hdraws : s.rstSeen = true → (passStep s).draws = s.draws := fun hr => by rw [passStep_of_rstSeen hr]
    simpa [hn] using hdraws
  case byteRefused b =>
    obtain ⟨-, -, rfl⟩ := (exec_byteRefused_iff b s t).1 h
    simp
  case byteTail b =>
    obtain ⟨-, -, -, rfl⟩ := (exec_byteTail_iff b s t).1 h
    obtain ⟨st, p25, p10, hlt, hc⟩ := completeFrame_writes_report (tailMatches b) s
    simp [hc, operandByte]
  all_goals
    simp only [exec_byteMagic0_iff, exec_byteMagic1_iff, exec_byteP25l_iff, exec_byteP25h_iff, exec_byteP10l_iff,
      exec_byteP10h_iff, exec_byteRsv0_iff, exec_byteRsv1_iff, exec_byteCksum_iff] at h
    obtain ⟨-, -, -, rfl⟩ := h
    simp [operandByte]

/-- `halted`'s row of the write summary. -/
theorem exec_halted_writer {i : Instr} {s t : State} (h : exec i s = .next t) (hne : t.halted ≠ s.halted) :
    i = .reset ∨ ∃ b, i = .byteTail b := by
  obtain ⟨-, -, -, -, -, -, -, hreport, -⟩ := registerWriters i s t h
  exact hreport (.inr (.inr (.inr hne)))

/-- No word is accepted while halted (40_transactions R103). -/
theorem accepts_of_halted {s : State} (w : Word) (hhalted : s.halted = true) : accepts s w = false := by
  simp [accepts, hhalted]

/-- Settles O29: the write summary leaves RESET and the tail; RESET clears, and the tail runs only while `halted = 0`. -/
theorem haltedSetByErrorClearedByReset : Obligations.HaltedSetByErrorClearedByReset := by
  refine ⟨rfl, fun i s t h => ⟨?set, ?clear⟩, fun s w hh => accepts_of_halted w hh⟩
  case set =>
    intro hrun hhalted
    obtain rfl | ⟨b, rfl⟩ := exec_halted_writer h (by simp [hrun, hhalted])
    · obtain rfl := (exec_reset_iff s t).1 h
      cases hhalted
    · obtain ⟨-, -, -, rfl⟩ := (exec_byteTail_iff b s t).1 h
      exact ⟨⟨b, rfl⟩, completeFrame_error_of_halted hrun hhalted⟩
  case clear =>
    intro hhalted hrun
    obtain rfl | ⟨b, rfl⟩ := exec_halted_writer h (by simp [hrun, hhalted])
    · rfl
    · obtain ⟨-, hnot, -, -⟩ := (exec_byteTail_iff b s t).1 h
      simp [hnot] at hhalted

/-- No instruction clears `rst_seen`: only RESET writes it, with 1. -/
theorem exec_keeps_rstSeen {i : Instr} {s t : State} (h : exec i s = .next t) (hs : s.rstSeen = true) :
    t.rstSeen = true := by
  by_cases hi : i = .reset
  · subst hi
    rw [(exec_reset_iff s t).1 h]
    rfl
  · obtain ⟨-, -, -, -, -, -, -, -, hwriter, -⟩ := registerWriters i s t h
    rw [← hs]
    exact not_imp_comm.1 hwriter hi

/-- Settles O30: a step is an instruction, and no instruction clears `rst_seen`. -/
theorem rstSeenSetByResetNeverCleared : Obligations.RstSeenSetByResetNeverCleared := by
  refine ⟨rfl, fun s => ⟨resetRegisters s, rfl, rfl⟩, fun s t h hs => ?_⟩
  obtain ⟨w, rest, i, -, -, hexec⟩ := step_next_exec h
  exact exec_keeps_rstSeen hexec hs

/-- Settles O31: the three writers by their written states, every other row by the write summary. -/
theorem resValidSetByCompletion : Obligations.ResValidSetByCompletion := by
  refine ⟨fun s t h => ?reset, fun s t b h => ?tail, fun s t b h => ?magic0, fun i s t h hreset htail hmagic0 => ?other⟩
  case reset =>
    rw [(exec_reset_iff s t).1 h]
    rfl
  case tail =>
    obtain ⟨-, -, -, rfl⟩ := (exec_byteTail_iff b s t).1 h
    obtain ⟨st, p25, p10, hlt, hc⟩ := completeFrame_writes_report (tailMatches b) s
    simp [hc]
  case magic0 =>
    obtain ⟨-, -, -, rfl⟩ := (exec_byteMagic0_iff b s t).1 h
    simp
  case other =>
    obtain ⟨-, -, -, -, -, -, hwriter, -⟩ := registerWriters i s t h
    refine not_imp_comm.1 hwriter ?_
    simp [hreset, htail, hmagic0]

end Sys2Proof.Machine
end

section
/-! PROOF. When a step faults (O8): a row that the decoder selects meets its guard, and under its guard it completes. -/

namespace Sys2Proof

/-- A position selects only rows whose guard it meets. -/
theorem tableGuard_of_selectPosition {idx : Pos} {b : Byte} {i : Instr} (h : selectPosition idx b = .instr i) :
    tableGuard true false idx i = true := by
  obtain ⟨j, hj, -, hguard⟩ | ⟨-, hj⟩ := Machine.selectPosition_cases idx b <;> rw [h] at hj <;> cases hj
  exact hguard

/-- The decoder answers only rows whose guard the state meets (opcode table, guard column). -/
theorem tableGuard_of_decode {rstSeen halted : Bool} {idx : Pos} {w : Word} {i : Instr}
    (h : decode rstSeen halted idx w = .instr i) : tableGuard rstSeen halted idx i = true := by
  unfold decode at h
  cases ht : decodeT w with
  | reset => rw [ht] at h; cases h; rfl
  | idle => rw [ht] at h; cases h; rfl
  | byte b =>
    rw [ht] at h
    cases rstSeen with
    | false => cases h
    | true =>
      cases halted with
      | true => cases h; rfl
      | false => exact tableGuard_of_selectPosition h

/-- After the first RESET a BYTE is never NotReset. -/
theorem selectByte_ne_notReset (halted : Bool) (idx : Pos) (b : Byte) : selectByte true halted idx b ≠ .notReset := by
  cases halted
  · rw [selectByte_run]
    obtain ⟨i, hi, -⟩ | ⟨-, hi⟩ := Machine.selectPosition_cases idx b <;> simp [hi]
  · simp [selectByte_halted]

/-- NotReset is answered exactly for a BYTE before the first RESET (10_state R38). -/
theorem decode_eq_notReset_iff (rstSeen halted : Bool) (idx : Pos) (w : Word) :
    decode rstSeen halted idx w = .notReset ↔ rstSeen = false ∧ fieldR w = false ∧ fieldV w = true := by
  cases hr : fieldR w
  · cases hv : fieldV w
    · simp [decode, decodeT_of_neither w hr hv]
    · rw [decode, decodeT_of_fieldV w hr hv]
      cases rstSeen
      · simp [selectByte_notReset]
      · simp [selectByte_ne_notReset]
  · simp [decode, decodeT_of_fieldR w hr]

end Sys2Proof

namespace Sys2Proof.Machine

/-- A row completes in every state that meets its guard. -/
theorem exec_next_of_tableGuard {i : Instr} {s : State} (h : tableGuard s.rstSeen s.halted s.idx i = true) :
    ∃ t, exec i s = .next t := by
  cases i
  case reset => exact ⟨_, rfl⟩
  case idle => exact ⟨_, rfl⟩
  case byteRefused b =>
    simp only [tableGuard, Bool.and_eq_true] at h
    obtain ⟨hr, hh⟩ := h
    exact ⟨s, (exec_byteRefused_iff b s s).2 ⟨hr, hh, rfl⟩⟩
  all_goals
    simp only [tableGuard, Bool.and_eq_true, Bool.not_eq_true', beq_iff_eq] at h
    obtain ⟨⟨hr, hh⟩, hi⟩ := h
    simp only [exec_byteMagic0_iff, exec_byteMagic1_iff, exec_byteP25l_iff, exec_byteP25h_iff, exec_byteP10l_iff,
      exec_byteP10h_iff, exec_byteRsv0_iff, exec_byteRsv1_iff, exec_byteCksum_iff, exec_byteTail_iff]
    exact ⟨_, hr, hh, hi, rfl⟩

/-- Settles O8: only a word that selects no row stops a step, and the only such stop that is a fault is the decoder's NotReset. -/
theorem stepFaultsExactlyOnByteBeforeReset : Obligations.StepFaultsExactlyOnByteBeforeReset := by
  intro s f
  constructor
  · intro h
    cases hin : s.inputs with
    | nil => rw [step_nil hin] at h; cases h
    | cons w rest =>
      cases hd : decode s.rstSeen s.halted s.idx w with
      | instr i =>
        have hguard := tableGuard_of_decode hd
        obtain ⟨t, ht⟩ := exec_next_of_tableGuard (s := s.setInputs rest) hguard
        rw [step_of_decode_instr hin hd, ht] at h
        cases h
      | notReset =>
        rw [step_of_decode_notReset hin hd] at h
        cases h
        obtain ⟨hrst, hr, hv⟩ := (decode_eq_notReset_iff _ _ _ _).1 hd
        exact ⟨rfl, hrst, w, rest, rfl, hr, hv⟩
      | unreachableIdx => rw [step_of_decode_unreachableIdx hin hd] at h; cases h
  · rintro ⟨rfl, hrst, w, rest, hin, hr, hv⟩
    exact step_of_decode_notReset hin ((decode_eq_notReset_iff _ _ _ _).2 ⟨hrst, hr, hv⟩)

end Sys2Proof.Machine
end

section
/-! PROOF. Ten bytes from position 0 (O51): what the registers hold after `k` bytes of a frame is kept byte by byte, and the
completion at the tail is then the reference function `Decode` (42_validation_and_scaling R170, R171). -/

namespace Sys2Proof.Machine

/-- The sum of the payload bytes of `B` before position `k` (R151). -/
def sumBefore (B : Frame) (k : Nat) : Byte :=
  (((B.toList.drop ckFirst).take (ckLast + 1 - ckFirst)).take (k - ckFirst)).foldl add8 0x00#8

/-- A payload byte enters the sum. -/
theorem sumBefore_succ (B : Frame) {k : Nat} (h2 : 2 ≤ k) (h7 : k < 8) :
    sumBefore B (k + 1) = add8 (sumBefore B k) (B[k]'(h7.trans (by decide))) := by
  obtain ⟨j, rfl⟩ := Nat.exists_eq_add_of_le h2
  have hj : j < 6 := by omega
  have hlen : 2 + j < 10 := by omega
  have hget : ((B.toList.drop ckFirst).take (ckLast + 1 - ckFirst))[j]? = some B[2 + j] := by
    simp [ckFirst, ckLast, hj, hlen]
  have hcount : 2 + j + 1 - ckFirst = (2 + j - ckFirst) + 1 := by simp only [ckFirst]; omega
  have hj' : 2 + j - ckFirst = j := Nat.add_sub_cancel_left 2 j
  rw [sumBefore, hcount, List.take_add_one, hj', hget]
  simp [sumBefore, hj']

/-- Byte 2 restarts the sum. -/
theorem sumBefore_three (B : Frame) : sumBefore B 3 = B[2] := by
  rw [sumBefore_succ B (by decide) (by decide)]
  simp [sumBefore, ckFirst, add8]

/-- From position 8 on the sum is complete. -/
theorem sumBefore_payload (B : Frame) {k : Nat} (h : 8 ≤ k) : sumBefore B k = sum8 B := by
  have hpayload : min (k - 2) 6 = 6 := by omega
  simp [sumBefore, sum8, ckFirst, ckLast, List.take_take, hpayload]

/-- The registers of a block in RUN mode that has accepted the first `k` bytes of `B`; what it has not read yet is free. -/
structure Reading (B : Frame) (k : Nat) (s : State) : Prop where
  rstSeen : s.rstSeen = true
  running : s.halted = false
  idx : s.idx = BitVec.ofNat 4 k
  hdrOkMagic0 : k = 1 → s.hdrOk = (B[0] == magic0)
  hdrOk : 2 ≤ k → s.hdrOk = (B[0] == magic0 && B[1] == magic1)
  acc : 3 ≤ k → s.acc = sumBefore B k
  f25Low : k = 3 → lowByte s.f25 = B[2]
  f25 : 4 ≤ k → s.f25 = framePm25Raw B
  f10Low : k = 5 → lowByte s.f10 = B[4]
  f10 : 6 ≤ k → s.f10 = framePm10Raw B
  ckOk : 9 ≤ k → s.ckOk = ckOK B

/-- In RUN mode a BYTE word executes the row of its position. -/
theorem step_byteWord_run {s t : State} {b : Byte} {rest : List Word} {i : Instr} (hin : s.inputs = byteWord b :: rest)
    (hrst : s.rstSeen = true) (hrun : s.halted = false) (hsel : selectPosition s.idx b = .instr i)
    (hexec : exec i (s.setInputs rest) = .next t) : step s = .next t := by
  have hd : decode s.rstSeen s.halted s.idx (byteWord b) = .instr i := by
    simp only [hrst, hrun, decode, decodeT_byteWord, selectByte_run, hsel]
  exact (step_of_decode_instr hin hd).trans hexec

/-- Each byte before the tail leaves in the registers what its row reads from it. -/
theorem Reading.accept {B : Frame} {k : Nat} {s : State} {rest : List Word} (h : Reading B k s) (hk : k < 9)
    (hin : s.inputs = byteWord (B[k]'(hk.trans (by decide))) :: rest) :
    ∃ t, step s = .next t ∧ t.inputs = rest ∧ Reading B (k + 1) t := by
  obtain ⟨hrst, hrun, hidx, hmagic0, hhdr, hacc, h25l, h25, h10l, h10, -⟩ := h
  suffices hrow : ∃ i t, selectPosition (BitVec.ofNat 4 k) (B[k]'(hk.trans (by decide))) = .instr i ∧
      exec i (s.setInputs rest) = .next t ∧ t.inputs = rest ∧ Reading B (k + 1) t by
    obtain ⟨i, t, hsel, hexec, hrest, hread⟩ := hrow
    rw [← hidx] at hsel
    exact ⟨t, step_byteWord_run hin hrst hrun hsel hexec, hrest, hread⟩
  interval_cases k
  · exact ⟨.byteMagic0 B[0], _, rfl, (exec_byteMagic0_iff ..).2 ⟨hrst, hrun, hidx, rfl⟩, rfl, by
      constructor <;> simp [hrst, hrun, hdrAfterMagic0]⟩
  · exact ⟨.byteMagic1 B[1], _, rfl, (exec_byteMagic1_iff ..).2 ⟨hrst, hrun, hidx, rfl⟩, rfl, by
      constructor <;> simp [hrst, hrun, hdrAfterMagic1, hmagic0]⟩
  · exact ⟨.byteP25l B[2], _, rfl, (exec_byteP25l_iff ..).2 ⟨hrst, hrun, hidx, rfl⟩, rfl, by
      constructor <;> simp [hrst, hrun, hhdr, sumBefore_three]⟩
  · exact ⟨.byteP25h B[3], _, rfl, (exec_byteP25h_iff ..).2 ⟨hrst, hrun, hidx, rfl⟩, rfl, by
      constructor <;> simp [hrst, hrun, hhdr, hacc, h25l, sumBefore_succ, setHighByte, framePm25Raw]⟩
  · exact ⟨.byteP10l B[4], _, rfl, (exec_byteP10l_iff ..).2 ⟨hrst, hrun, hidx, rfl⟩, rfl, by
      constructor <;> simp [hrst, hrun, hhdr, hacc, h25, sumBefore_succ]⟩
  · exact ⟨.byteP10h B[5], _, rfl, (exec_byteP10h_iff ..).2 ⟨hrst, hrun, hidx, rfl⟩, rfl, by
      constructor <;> simp [hrst, hrun, hhdr, hacc, h25, h10l, sumBefore_succ, setHighByte, framePm10Raw]⟩
  · exact ⟨.byteRsv0 B[6], _, rfl, (exec_byteRsv0_iff ..).2 ⟨hrst, hrun, hidx, rfl⟩, rfl, by
      constructor <;> simp [hrst, hrun, hhdr, hacc, h25, h10, sumBefore_succ]⟩
  · exact ⟨.byteRsv1 B[7], _, rfl, (exec_byteRsv1_iff ..).2 ⟨hrst, hrun, hidx, rfl⟩, rfl, by
      constructor <;> simp [hrst, hrun, hhdr, hacc, h25, h10, sumBefore_succ]⟩
  · exact ⟨.byteCksum B[8], _, rfl, (exec_byteCksum_iff ..).2 ⟨hrst, hrun, hidx, rfl⟩, rfl, by
      constructor <;> simp [hrst, hrun, hhdr, hacc, h25, h10, sumBefore_payload, checksumMatches, ckOK]⟩

/-- The first `k` bytes of a frame, offered one after another from position 0. -/
theorem reading_of_run {B : Frame} {s : State} {rest : List Word} (hin : s.inputs = frameWords B ++ rest)
    (hrst : s.rstSeen = true) (hrun : s.halted = false) (hidx : s.idx = 0#4) {k : Nat} (hk : k ≤ 9) :
    ∃ t, runSteps k s = .next t ∧ t.inputs = (frameWords B).drop k ++ rest ∧ Reading B k t := by
  induction k with
  | zero =>
    refine ⟨s, rfl, hin, ?_⟩
    constructor <;> simp [hrst, hrun, hidx]
  | succ k ih =>
    obtain ⟨t, ht, htin, hread⟩ := ih (by omega)
    have hlen : k < (frameWords B).length := by
      rw [frameWords, List.length_map, Vector.length_toList]
      exact hk.trans (by decide)
    rw [List.drop_eq_getElem_cons hlen] at htin
    obtain ⟨u, hu, huin, hread'⟩ := hread.accept (rest := (frameWords B).drop (k + 1) ++ rest) (by omega)
      (by simpa [frameWords] using htin)
    refine ⟨u, ?_, huin, hread'⟩
    rw [runSteps_add ht, runSteps_succ_of_next 0 hu, runSteps_zero]

/-- The completion is `Decode` (R170): the header and tail checks first, then the checksum, then the fields. -/
theorem completeFrame_agrees_decode (fmt : FloatFmt) {B : Frame} {s : State} (h : Reading B 9 s) :
    let t := completeFrame (tailMatches B[9]) s
    statusCode t.status = outcomeCode (decodeFrame fmt B) ∧ t.halted = !outcomeIsOk (decodeFrame fmt B) ∧
      t.pm25Raw = (if outcomeIsOk (decodeFrame fmt B) = true then framePm25Raw B else 0#16) ∧
      t.pm10Raw = (if outcomeIsOk (decodeFrame fmt B) = true then framePm10Raw B else 0#16) := by
  have hmagic : magicOK B = (s.hdrOk && tailMatches B[9]) := by
    rw [h.hdrOk (by decide)]
    rfl
  have hck : ckOK B = s.ckOk := (h.ckOk (by decide)).symm
  obtain ⟨hm, hc⟩ | ⟨hm, hk, hc⟩ | ⟨hm, hk, hc⟩ := completeFrame_cases (tailMatches B[9]) s
  · have hB : decodeFrame fmt B = .invalidHeader := by simp [decodeFrame, hmagic, hm]
    simp [hc, hB, statusCode, outcomeCode, outcomeIsOk]
  · have hB : decodeFrame fmt B = .checksumMismatch := by simp [decodeFrame, hmagic, hm, hck, hk]
    simp [hc, hB, statusCode, outcomeCode, outcomeIsOk]
  · have hB : decodeFrame fmt B = .measurement (framePm25Raw B) (framePm10Raw B) (scale fmt (framePm25Raw B))
        (scale fmt (framePm10Raw B)) := by simp [decodeFrame, hmagic, hm, hck, hk]
    simp [hc, hB, statusCode, outcomeCode, outcomeIsOk, h.running, h.f25, h.f10]

/-- Settles O51: nine bytes fill the registers from the frame, and the tenth completes it as `Decode` does. -/
theorem tenBytesGiveDecode : Obligations.TenBytesGiveDecode := by
  intro fmt s B rest hrst hrun hidx
  obtain ⟨u, hu, huin, hread⟩ :=
    reading_of_run (B := B) (s := { s with inputs := frameWords B ++ rest }) rfl hrst hrun hidx (le_refl 9)
  have htail : u.inputs = byteWord B[9] :: rest := by
    rw [huin, List.drop_eq_getElem_cons (by simp [frameWords])]
    simp [frameWords]
  have hstep := step_byteWord_run (i := .byteTail B[9]) htail hread.rstSeen hread.running (by rw [hread.idx]; rfl)
    ((exec_byteTail_iff ..).2 ⟨hread.rstSeen, hread.running, hread.idx, rfl⟩)
  have hread' : Reading B 9 (u.setInputs rest) := { hread with }
  obtain ⟨st, p25, p10, hlt, hc⟩ := completeFrame_writes_report (tailMatches B[9]) (u.setInputs rest)
  have hdecode := completeFrame_agrees_decode fmt hread'
  refine ⟨(completeFrame (tailMatches B[9]) (u.setInputs rest)).setIdx 0#4, ?run, ?inputs, ?rstSeen, rfl, ?resValid, ?acc,
    ?f25, ?f10, hdecode⟩
  case run => rw [runSteps_add (j := 9) (k := 1) hu, runSteps_succ_of_next 0 hstep, runSteps_zero]
  case inputs => simp [hc]
  case rstSeen => simp [hc, hread.rstSeen]
  case resValid => simp [hc]
  case acc => simp [hc, hread.acc, sumBefore_payload]
  case f25 => simp [hc, hread.f25]
  case f10 => simp [hc, hread.f10]

end Sys2Proof.Machine
end

section
/-! PROOF. The output ports as functions of the registers (10_state R23, R36, R37): O36, O37, O38. -/

namespace Sys2Proof.Machine

/-! The packed status word (R23): the number it is, and its fields read back from that number. -/

/-- Concatenation as a sum: the low part stays below the weight of the high one. -/
theorem toNat_append_eq_add {m n : Nat} (x : BitVec m) (y : BitVec n) :
    (x ++ y).toNat = x.toNat * 2 ^ n + y.toNat := by
  rw [BitVec.toNat_append, ← Nat.shiftLeft_add_eq_or_of_lt y.isLt, Nat.shiftLeft_eq]

theorem packStat_toNat (s : State) :
    (packStat s).toNat =
      16 * s.idx.toNat + 8 * s.halted.toNat + 4 * s.resValid.toNat + (statusCode s.status).toNat := by
  have hlow := toNat_append_eq_add (BitVec.ofBool s.resValid) (statusCode s.status)
  have hmid := toNat_append_eq_add (BitVec.ofBool s.halted) (BitVec.ofBool s.resValid ++ statusCode s.status)
  have hword : (packStat s).toNat = _ :=
    toNat_append_eq_add s.idx (BitVec.ofBool s.halted ++ (BitVec.ofBool s.resValid ++ statusCode s.status))
  rw [hword, hmid, hlow, BitVec.toNat_ofBool, BitVec.toNat_ofBool]
  omega

theorem statStatus_packStat (s : State) : statStatus (packStat s) = statusCode s.status := by
  apply BitVec.eq_of_toNat_eq
  have hcode := (statusCode s.status).isLt
  rw [statStatus, BitVec.extractLsb'_toNat, packStat_toNat, Nat.shiftRight_zero]
  omega

theorem statResValid_packStat (s : State) : statResValid (packStat s) = s.resValid := by
  have hcode := (statusCode s.status).isLt
  rw [statResValid, BitVec.getLsbD, packStat_toNat, Nat.testBit_eq_decide_div_mod_eq]
  cases s.resValid <;> simp only [Bool.toNat_true, Bool.toNat_false, decide_eq_true_eq, decide_eq_false_iff_not] <;> omega

theorem statHalted_packStat (s : State) : statHalted (packStat s) = s.halted := by
  have hcode := (statusCode s.status).isLt
  have hvalid := s.resValid.toNat_le
  rw [statHalted, BitVec.getLsbD, packStat_toNat, Nat.testBit_eq_decide_div_mod_eq]
  cases s.halted <;> simp only [Bool.toNat_true, Bool.toNat_false, decide_eq_true_eq, decide_eq_false_iff_not] <;> omega

theorem statBytePos_packStat (s : State) : statBytePos (packStat s) = s.idx := by
  apply BitVec.eq_of_toNat_eq
  have hcode := (statusCode s.status).isLt
  have hvalid := s.resValid.toNat_le
  have hhalted := s.halted.toNat_le
  have hidx := s.idx.isLt
  rw [statBytePos, BitVec.extractLsb'_toNat, packStat_toNat, Nat.shiftRight_eq_div_pow]
  omega

/-! After a RESET each port shows its registers. -/

theorem outStat_of_rstSeen {s : State} (h : s.rstSeen = true) : outStat s = packStat s := by simp [outStat, h]

theorem outInReady_of_rstSeen {s : State} (h : s.rstSeen = true) : outInReady s = !s.halted := by simp [outInReady, h]

/-- Settles O36: after a RESET the port is the packed word. -/
theorem statusWordPacksRegisters : Obligations.StatusWordPacksRegisters := by
  refine ⟨fun s hrst => ?_, rfl⟩
  rw [outStat_of_rstSeen hrst]
  refine ⟨?number, statStatus_packStat s, statResValid_packStat s, statHalted_packStat s, statBytePos_packStat s⟩
  rw [packStat_toNat]
  cases s.status <;> rfl

/-- A byte offered while halted is consumed and changes no register (40_transactions R105). -/
theorem step_byteWord_halted {s : State} {b : Byte} {rest : List Word} (hin : s.inputs = byteWord b :: rest)
    (hrst : s.rstSeen = true) (hhalted : s.halted = true) : step s = .next (s.setInputs rest) := by
  have hd : decode s.rstSeen s.halted s.idx (byteWord b) = .instr (.byteRefused b) := by
    simp only [hrst, hhalted, decode, decodeT_byteWord, selectByte_halted]
  exact (step_of_decode_instr hin hd).trans ((exec_byteRefused_iff ..).2 ⟨hrst, hhalted, rfl⟩)

/-- Settles O37: after a RESET `in_ready = 0` means halted, and a byte offered while halted is BYTE.REFUSED. -/
theorem inReadyIsNotHalted : Obligations.InReadyIsNotHalted := by
  intro s
  refine ⟨outInReady_of_rstSeen, fun hrst => by simp [outInReady, hrst], fun hrst hready b rest => ?_⟩
  have hhalted : s.halted = true := by simpa [outInReady_of_rstSeen hrst] using hready
  exact ⟨accepts_of_halted _ hhalted, step_byteWord_halted rfl hrst hhalted⟩

theorem scale_zero (fmt : FloatFmt) : scale fmt 0#16 = 0#fmt.width := by simp [scale, scaleNat]

/-- Settles O38: the reset results are 0, so both scaled ports at reset are `SCALE(0)`. -/
theorem scaledOutputsFollowRawRegisters : Obligations.ScaledOutputsFollowRawRegisters := by
  refine ⟨fun fmt s hrst => ?ports, fun fmt => ⟨scale_zero fmt, scale_zero fmt, scale_zero fmt⟩⟩
  simp [outPm25Raw, outPm10Raw, outPm25F, outPm10F, hrst]

end Sys2Proof.Machine
end

section
/-! PROOF. The position counts the accepted bytes (20_memory R50, R54; O55): what a step other than RESET consumes and leaves of
the position, and the sum of it over a run that ends in RUN mode, in which every offered byte was accepted. -/

namespace Sys2Proof.Machine

/-! The bytes that a list of words offers, word by word. -/

theorem offeredBytes_cons (w : Word) (ws : List Word) : offeredBytes (w :: ws) = offeredBytes [w] ++ offeredBytes ws := by
  simp only [offeredBytes]
  cases decodeT w <;> rfl

theorem offeredBytes_idle {w : Word} (hr : fieldR w = false) (hv : fieldV w = false) : offeredBytes [w] = [] := by
  simp [offeredBytes, decodeT_of_neither w hr hv]

theorem offeredBytes_byte {w : Word} (hr : fieldR w = false) (hv : fieldV w = true) : offeredBytes [w] = [fieldB w] := by
  simp [offeredBytes, decodeT_of_fieldV w hr hv]

/-! What a step consumes, and what it leaves of the position and of `halted`. -/

/-- No instruction touches the words still to be offered. -/
theorem exec_keeps_inputs {i : Instr} {s t : State} (h : exec i s = .next t) : t.inputs = s.inputs := by
  obtain ⟨-, -, -, -, -, -, -, -, -, hinputs, -⟩ := registerWriters i s t h
  exact hinputs

/-- A step consumes the word it was offered, accepted or not (20_memory R56). -/
theorem step_inputs {s t : State} {w : Word} {rest : List Word} (hin : s.inputs = w :: rest) (h : step s = .next t) :
    t.inputs = rest := by
  obtain ⟨w', rest', i, hin', -, hexec⟩ := step_next_exec h
  obtain ⟨-, rfl⟩ := List.cons.inj (hin'.symm.trans hin)
  exact exec_keeps_inputs hexec

@[simp] theorem passStep_idx (s : State) : (passStep s).idx = s.idx := by
  obtain ⟨n, hn⟩ := passStep_eq s
  rw [hn]

@[simp] theorem passStep_halted (s : State) : (passStep s).halted = s.halted := by
  obtain ⟨n, hn⟩ := passStep_eq s
  rw [hn]

/-- A byte row of RUN mode is an acceptance at its position (40_transactions R102). -/
theorem exec_eq_acceptAt {idx : Pos} {i : Instr} {b : Byte} (hb : operandByte i = some b)
    (hguard : tableGuard true false idx i = true) : ∃ p write, exec i = acceptAt p write := by
  cases i
  case reset => cases hb
  case idle => cases hb
  case byteRefused => cases hguard
  all_goals exact ⟨_, _, rfl⟩

/-- A step other than RESET that ends in RUN mode began there, and moved the position exactly if it was offered a byte
(40_transactions R104). -/
theorem step_idx_of_running {s t : State} {w : Word} {rest : List Word} (hin : s.inputs = w :: rest)
    (hr : fieldR w = false) (h : step s = .next t) (hrun : t.halted = false) :
    s.halted = false ∧ t.idx = if fieldV w = true then nextPos s.idx else s.idx := by
  obtain ⟨w', rest', hin', hcases⟩ := step_next_cases h
  obtain ⟨rfl, rfl⟩ := List.cons.inj (hin'.symm.trans hin)
  obtain ⟨hr', -⟩ | ⟨-, hv, rfl⟩ | ⟨-, -, -, hhalted, rfl⟩ | ⟨-, hv, -, hrun', i, -, hb, hguard, hexec⟩ := hcases
  · simp [hr] at hr'
  · simpa [hv] using hrun
  · simp [hhalted] at hrun
  · obtain ⟨p, write, hrow⟩ := exec_eq_acceptAt hb hguard
    rw [hrow, acceptAt_next_iff] at hexec
    obtain ⟨-, -, -, -, rfl⟩ := hexec
    exact ⟨hrun', by simp [hv]⟩

/-- The position advances mod 10 (R50). -/
theorem nextPos_toNat {p : Pos} (hp : p.toNat ≤ 9) : (nextPos p).toNat = (p.toNat + 1) % 10 := by
  by_cases h : p = 9#4
  · simp [h, nextPos_nine]
  · rw [nextPos_of_ne h]
    bv_omega

/-- One step's share of the count. -/
theorem step_idx_counts {s t : State} {w : Word} {rest : List Word} (hin : s.inputs = w :: rest) (hr : fieldR w = false)
    (hidx : s.idx.toNat ≤ 9) (h : step s = .next t) (hrun : t.halted = false) :
    s.halted = false ∧ t.idx.toNat = (s.idx.toNat + (offeredBytes [w]).length) % 10 := by
  obtain ⟨hrun', hnext⟩ := step_idx_of_running hin hr h hrun
  refine ⟨hrun', ?_⟩
  cases hv : fieldV w
  · rw [offeredBytes_idle hr hv, hnext, hv]
    exact (Nat.mod_eq_of_lt (Nat.lt_succ_of_le hidx)).symm
  · rw [offeredBytes_byte hr hv, hnext, hv]
    exact nextPos_toNat hidx

/-- Over a run without RESET the shares add up. That it began in RUN mode is carried along: only then did each step count. -/
theorem run_idx_counts {ws : List Word} {s t : State} (hin : s.inputs = ws) (hno : noReset ws = true) (hs : s.Inv)
    (h : runSteps ws.length s = .next t) (hrun : t.halted = false) :
    s.halted = false ∧ t.idx.toNat = (s.idx.toNat + (offeredBytes ws).length) % 10 := by
  induction ws generalizing s with
  | nil =>
    cases h
    obtain ⟨-, hidx, -⟩ := hs
    exact ⟨hrun, (Nat.mod_eq_of_lt (Nat.lt_succ_of_le hidx)).symm⟩
  | cons w rest ih =>
    simp only [noReset, List.all_cons, Bool.and_eq_true, Bool.not_eq_true'] at hno
    obtain ⟨hr, hrest⟩ := hno
    obtain ⟨u, hu, hrest'⟩ := runSteps_succ_next h
    obtain ⟨hurun, htail⟩ := ih (step_inputs hin hu) hrest (stepKeepsInvariants s u hs hu) hrest'
    obtain ⟨-, hidx, -⟩ := hs
    obtain ⟨hsrun, hhead⟩ := step_idx_counts hin hr hidx hu hurun
    refine ⟨hsrun, ?_⟩
    rw [htail, hhead, offeredBytes_cons w rest, List.length_append, Nat.mod_add_mod, Nat.add_assoc]

/-- Settles O55: RESET leaves position 0 and R40's invariants, and from there the run without RESET counts. -/
theorem positionCountsAcceptedBytes : Obligations.PositionCountsAcceptedBytes := by
  intro s t r ws hr hno h hrun
  rw [runSteps_succ_of_next _ (step_of_fieldR rfl hr)] at h
  obtain ⟨-, hcount⟩ := run_idx_counts (ws := ws) rfl hno (resetRegisters_inv _) h hrun
  simpa [State.reset] using hcount

end Sys2Proof.Machine
end

section
/-! PROOF. The decoder is the opcode table (30_encoding R70 to R73; O5, O4, O1, O2, O3): a row is selected exactly when the state
meets the row's guard and the word asks for the row's transaction, and the word asks for it exactly when it has the row's fixed
bits and its operand. -/

namespace Sys2Proof

/-! A word is its fields, `512 r + 256 v + b` (R70). -/

theorem fieldR_toNat (w : Word) : (fieldR w).toNat = w.toNat / 512 := by
  have hw := w.isLt
  rw [fieldR, BitVec.getLsbD, Nat.toNat_testBit]
  omega

theorem fieldV_toNat (w : Word) : (fieldV w).toNat = w.toNat / 256 % 2 := by
  rw [fieldV, BitVec.getLsbD, Nat.toNat_testBit]

theorem fieldB_toNat (w : Word) : (fieldB w).toNat = w.toNat % 256 := by
  rw [fieldB, BitVec.toNat_setWidth]

/-- The word with these three fields. -/
def wordOfFields (r v : Bool) (b : Byte) : Word := BitVec.ofNat 10 (512 * r.toNat + 256 * v.toNat + b.toNat)

theorem wordOfFields_toNat (r v : Bool) (b : Byte) :
    (wordOfFields r v b).toNat = 512 * r.toNat + 256 * v.toNat + b.toNat := by
  have hr := r.toNat_le
  have hv := v.toNat_le
  rw [wordOfFields, BitVec.toNat_ofNat]
  omega

@[simp] theorem fieldR_wordOfFields (r v : Bool) (b : Byte) : fieldR (wordOfFields r v b) = r := by
  have hv := v.toNat_le
  rw [Bool.eq_iff_iff, ← Bool.toNat_eq_one, ← Bool.toNat_eq_one, fieldR_toNat, wordOfFields_toNat]
  omega

@[simp] theorem fieldV_wordOfFields (r v : Bool) (b : Byte) : fieldV (wordOfFields r v b) = v := by
  have hv := v.toNat_le
  rw [Bool.eq_iff_iff, ← Bool.toNat_eq_one, ← Bool.toNat_eq_one, fieldV_toNat, wordOfFields_toNat]
  omega

@[simp] theorem fieldB_wordOfFields (r v : Bool) (b : Byte) : fieldB (wordOfFields r v b) = b := by
  apply BitVec.eq_of_toNat_eq
  rw [fieldB_toNat, wordOfFields_toNat]
  omega

theorem wordOfFields_fields (w : Word) : wordOfFields (fieldR w) (fieldV w) (fieldB w) = w := by
  apply BitVec.eq_of_toNat_eq
  rw [wordOfFields_toNat, fieldR_toNat, fieldV_toNat, fieldB_toNat]
  omega

/-! The transaction of a word (R71), and the fixed bits (the table's mask and match columns), by its fields. -/

theorem decodeT_eq_reset_iff (w : Word) : decodeT w = .reset ↔ fieldR w = true := by
  unfold decodeT
  cases fieldR w <;> cases fieldV w <;> simp

theorem decodeT_eq_idle_iff (w : Word) : decodeT w = .idle ↔ fieldR w = false ∧ fieldV w = false := by
  unfold decodeT
  cases fieldR w <;> cases fieldV w <;> simp

theorem decodeT_eq_byte_iff (w : Word) (b : Byte) :
    decodeT w = .byte b ↔ fieldR w = false ∧ fieldV w = true ∧ fieldB w = b := by
  unfold decodeT
  cases fieldR w <;> cases fieldV w <;> simp

theorem fixedBits_reset_iff (w : Word) : w &&& 0x200#10 = 0x200#10 ↔ fieldR w = true := by
  simp [BitVec.eq_of_getLsbD_eq_iff, Nat.forall_lt_succ_right, Nat.le_one_iff_eq_zero_or_eq_one, fieldR]

theorem fixedBits_idle_iff (w : Word) : w &&& 0x300#10 = 0x000#10 ↔ fieldR w = false ∧ fieldV w = false := by
  simp [BitVec.eq_of_getLsbD_eq_iff, Nat.forall_lt_succ_right, Nat.le_one_iff_eq_zero_or_eq_one, fieldR, fieldV, and_comm]

theorem fixedBits_byte_iff (w : Word) : w &&& 0x300#10 = 0x100#10 ↔ fieldR w = false ∧ fieldV w = true := by
  simp [BitVec.eq_of_getLsbD_eq_iff, Nat.forall_lt_succ_right, Nat.le_one_iff_eq_zero_or_eq_one, fieldR, fieldV, and_comm]

/-! The transaction of a row: RESET, IDLE, or BYTE with the row's operand (30_encoding R73). -/

/-- The transaction a row belongs to. -/
def Instr.transaction (i : Instr) : Transaction :=
  match operandByte i with
  | some b => .byte b
  | none => if i = .reset then .reset else .idle

theorem Instr.transaction_reset : Instr.transaction .reset = .reset := rfl

theorem Instr.transaction_idle : Instr.transaction .idle = .idle := rfl

theorem Instr.transaction_byte {i : Instr} {b : Byte} (h : operandByte i = some b) : i.transaction = .byte b := by
  simp [Instr.transaction, h]

theorem Instr.cases_operandByte (i : Instr) : i = .reset ∨ i = .idle ∨ ∃ b, operandByte i = some b := by
  cases i
  case reset => exact .inl rfl
  case idle => exact .inr (.inl rfl)
  all_goals exact .inr (.inr ⟨_, rfl⟩)

/-- The BYTE rows have the same fixed bits and the same canonical word; only their guards tell them apart. -/
theorem byteRow_columns {i : Instr} {b : Byte} (h : operandByte i = some b) :
    tableMask i = 0x300#10 ∧ tableMatch i = 0x100#10 ∧ encode i = byteWord b := by
  cases i <;> cases h <;> exact ⟨rfl, rfl, rfl⟩

/-- A word asks for a row's transaction exactly when it has the row's fixed bits, and the row's operand in field `b`. -/
theorem decodeT_eq_transaction_iff (w : Word) (i : Instr) :
    decodeT w = i.transaction ↔
      w &&& tableMask i = tableMatch i ∧ ∀ b, operandByte i = some b → fieldB w = b := by
  obtain rfl | rfl | ⟨b, hb⟩ := i.cases_operandByte
  · rw [Instr.transaction_reset, decodeT_eq_reset_iff, ← fixedBits_reset_iff]
    exact (and_iff_left nofun).symm
  · rw [Instr.transaction_idle, decodeT_eq_idle_iff, ← fixedBits_idle_iff]
    exact (and_iff_left nofun).symm
  · obtain ⟨hmask, hmatch, -⟩ := byteRow_columns hb
    rw [Instr.transaction_byte hb, decodeT_eq_byte_iff, hmask, hmatch, fixedBits_byte_iff, hb]
    simp [and_assoc]

/-- The canonical word of a row asks for the row's transaction (R72). -/
theorem decodeT_encode (i : Instr) : decodeT (encode i) = i.transaction := by
  obtain rfl | rfl | ⟨b, hb⟩ := i.cases_operandByte
  · rfl
  · rfl
  · obtain ⟨-, -, hword⟩ := byteRow_columns hb
    rw [hword, decodeT_byteWord, Instr.transaction_byte hb]

/-! The row a word selects in a state (R73). -/

/-- The guards of the ten position rows are the positions 0 to 9. -/
theorem selectPosition_eq_instr_iff (idx : Pos) (b : Byte) (i : Instr) :
    selectPosition idx b = .instr i ↔ tableGuard true false idx i = true ∧ operandByte i = some b := by
  constructor
  · intro h
    obtain ⟨j, hj, hb, hguard⟩ | ⟨-, hj⟩ := Machine.selectPosition_cases idx b <;> rw [h] at hj <;> cases hj
    exact ⟨hguard, hb⟩
  · rintro ⟨hguard, hb⟩
    cases i
    case reset => cases hb
    case idle => cases hb
    case byteRefused => cases hguard
    all_goals
      cases hb
      obtain rfl : idx = _ := by simpa [tableGuard] using hguard
      rfl

/-- With BYTE.REFUSED, whose guard is `halted` at any position. -/
theorem selectByte_eq_instr_iff (rstSeen halted : Bool) (idx : Pos) (b : Byte) (i : Instr) :
    selectByte rstSeen halted idx b = .instr i ↔
      tableGuard rstSeen halted idx i = true ∧ operandByte i = some b := by
  cases rstSeen
  · cases i <;> simp [selectByte_notReset, tableGuard, operandByte]
  cases halted
  · rw [selectByte_run, selectPosition_eq_instr_iff]
  · cases i <;> simp [selectByte_halted, tableGuard, operandByte, eq_comm]

/-- The decoder answers a row exactly when the state meets its guard and the word asks for its transaction. -/
theorem decode_eq_instr_iff (rstSeen halted : Bool) (idx : Pos) (w : Word) (i : Instr) :
    decode rstSeen halted idx w = .instr i ↔
      tableGuard rstSeen halted idx i = true ∧ decodeT w = i.transaction := by
  unfold decode
  obtain rfl | rfl | ⟨b, hb⟩ := i.cases_operandByte
  · cases decodeT w <;> simp [Instr.transaction_reset, tableGuard, selectByte_eq_instr_iff, operandByte]
  · cases decodeT w <;> simp [Instr.transaction_idle, tableGuard, selectByte_eq_instr_iff, operandByte]
  · rw [Instr.transaction_byte hb]
    cases decodeT w with
    | reset => simpa using fun h => nomatch h ▸ hb
    | idle => simpa using fun h => nomatch h ▸ hb
    | byte b' =>
      rw [selectByte_eq_instr_iff, hb, Option.some_inj, Transaction.byte.injEq, eq_comm (a := b)]

/-- Settles O4: the canonical word of a row asks for the row's transaction, and the guard selects the row. -/
theorem decodeOfEncodeUnderGuard : Obligations.DecodeOfEncodeUnderGuard := by
  intro i rstSeen halted idx _ hguard
  exact (decode_eq_instr_iff ..).2 ⟨hguard, decodeT_encode i⟩

/-- Settles O5: the row's transaction as its fixed bits and its operand. -/
theorem decoderIsOpcodeTable : Obligations.DecoderIsOpcodeTable := by
  intro w i rstSeen halted idx
  rw [decode_eq_instr_iff, decodeT_eq_transaction_iff]
  rfl

/-- Settles O1: the three fields of a word can be read back, and they determine it. -/
theorem wordFieldsSelectTransaction : Obligations.WordFieldsSelectTransaction := by
  refine ⟨fun r v b => ?_, fun w => ⟨fieldR w, fieldV w, fieldB w, (wordOfFields_fields w).symm⟩⟩
  change decodeT (wordOfFields r v b) = _
  simp only [decodeT, fieldR_wordOfFields, fieldV_wordOfFields, fieldB_wordOfFields]

/-- The ignored bits of a word do not matter (R72). -/
theorem decodeT_congr {w w' : Word} (hr : fieldR w = fieldR w') (hv : fieldV w = fieldV w')
    (hb : fieldR w = false → fieldV w = true → fieldB w = fieldB w') : decodeT w = decodeT w' := by
  cases h : decodeT w with
  | reset => exact ((decodeT_eq_reset_iff w').2 (hr ▸ (decodeT_eq_reset_iff w).1 h)).symm
  | idle => exact ((decodeT_eq_idle_iff w').2 (hr ▸ hv ▸ (decodeT_eq_idle_iff w).1 h)).symm
  | byte b =>
    obtain ⟨hr0, hv1, rfl⟩ := (decodeT_eq_byte_iff w b).1 h
    exact ((decodeT_eq_byte_iff w' _).2 ⟨hr ▸ hr0, hv ▸ hv1, (hb hr0 hv1).symm⟩).symm

/-- Settles O2: every BYTE row has the canonical word of BYTE, and a word's transaction depends on no other bit. -/
theorem canonicalWordsAndIgnoredBits : Obligations.CanonicalWordsAndIgnoredBits := by
  refine ⟨rfl, rfl, fun i b hb => ?_, fun w w' => decodeT_congr⟩
  obtain ⟨-, -, hword⟩ := byteRow_columns hb
  exact hword

/-- Settles O3: a BYTE word is dispatched by `selectByte`, which answers the row of each state. -/
theorem byteSelectsMicroOperation : Obligations.ByteSelectsMicroOperation := by
  intro w b hr hv hb
  have hbyte : ∀ rstSeen halted idx, decode rstSeen halted idx w = selectByte rstSeen halted idx b := by
    intro rstSeen halted idx
    rw [decode, (decodeT_eq_byte_iff w b).2 ⟨hr, hv, hb⟩]
  simp only [hbyte]
  exact ⟨fun idx => selectByte_halted idx b, rfl, rfl, rfl, rfl, rfl, rfl, rfl, rfl, rfl, rfl,
    fun halted idx => selectByte_notReset halted idx b, fun idx hidx => selectPosition_unreachable idx b hidx⟩

end Sys2Proof
end

section
/-! PROOF. When a step is refused (O9), and that no word stops the block in a state that meets R40 (O10): a word that selects a
row steps, so only the decoder's two model outcomes and the end of the words are left. -/

namespace Sys2Proof.Machine

/-- A word that selects a row takes the block to a next state. -/
theorem step_next_of_decode_instr {s : State} {w : Word} {rest : List Word} {i : Instr} (hin : s.inputs = w :: rest)
    (hd : decode s.rstSeen s.halted s.idx w = .instr i) : ∃ t, step s = .next t := by
  rw [step_of_decode_instr hin hd]
  exact exec_next_of_tableGuard (s := s.setInputs rest) (tableGuard_of_decode hd)

/-- A position selects no row exactly when it is one of 10..15. -/
theorem selectPosition_eq_unreachableIdx_iff (idx : Pos) (b : Byte) :
    selectPosition idx b = .unreachableIdx ↔ 9 < idx.toNat := by
  refine ⟨fun h => ?_, selectPosition_unreachable idx b⟩
  obtain ⟨i, hi, -⟩ | ⟨hidx, -⟩ := selectPosition_cases idx b
  · rw [hi] at h
    cases h
  · exact hidx

/-- UnreachableIdx is answered exactly for a BYTE in RUN mode at a position 10..15 (30_encoding R73). -/
theorem decode_eq_unreachableIdx_iff (rstSeen halted : Bool) (idx : Pos) (w : Word) :
    decode rstSeen halted idx w = .unreachableIdx ↔
      rstSeen = true ∧ halted = false ∧ 9 < idx.toNat ∧ fieldR w = false ∧ fieldV w = true := by
  cases hr : fieldR w
  · cases hv : fieldV w
    · simp [decode, decodeT_of_neither w hr hv]
    · rw [decode, decodeT_of_fieldV w hr hv]
      cases rstSeen
      · simp [selectByte_notReset]
      cases halted
      · simp [selectByte_run, selectPosition_eq_unreachableIdx_iff]
      · simp [selectByte_halted]
  · simp [decode, decodeT_of_fieldR w hr]

/-- Settles O9: a word that selects a row is never refused, and the decoder's NotReset is a fault. -/
theorem stepRefusesExactlyAtEndOrUnreachableIdx : Obligations.StepRefusesExactlyAtEndOrUnreachableIdx := by
  intro s r
  constructor
  · intro h
    cases hin : s.inputs with
    | nil =>
      rw [step_nil hin] at h
      cases h
      exact .inl ⟨rfl, rfl⟩
    | cons w rest =>
      cases hd : decode s.rstSeen s.halted s.idx w with
      | instr i =>
        obtain ⟨t, ht⟩ := step_next_of_decode_instr hin hd
        rw [ht] at h
        cases h
      | notReset => rw [step_of_decode_notReset hin hd] at h; cases h
      | unreachableIdx =>
        rw [step_of_decode_unreachableIdx hin hd] at h
        cases h
        obtain ⟨hrst, hrun, hidx, hr, hv⟩ := (decode_eq_unreachableIdx_iff ..).1 hd
        exact .inr ⟨rfl, hrst, hrun, hidx, w, rest, rfl, hr, hv⟩
  · rintro (⟨rfl, hnil⟩ | ⟨rfl, hrst, hrun, hidx, w, rest, hin, hr, hv⟩)
    · exact step_nil hnil
    · exact step_of_decode_unreachableIdx hin ((decode_eq_unreachableIdx_iff ..).2 ⟨hrst, hrun, hidx, hr, hv⟩)

/-- Settles O10: R40 rules out both states in which a BYTE selects no row, and every step consumes the word offered. -/
theorem everyWordRunsAfterReset : Obligations.EveryWordRunsAfterReset := by
  intro s w rest hs hin
  obtain ⟨hrst, hidx, -⟩ := hs
  have hnext : ∃ t, step s = .next t := by
    cases hd : decode s.rstSeen s.halted s.idx w with
    | instr i => exact step_next_of_decode_instr hin hd
    | notReset =>
      obtain ⟨hnot, -⟩ := (decode_eq_notReset_iff ..).1 hd
      exact absurd hrst (by simp [hnot])
    | unreachableIdx =>
      obtain ⟨-, -, hlt, -⟩ := (decode_eq_unreachableIdx_iff ..).1 hd
      exact absurd hidx (by omega)
  obtain ⟨t, ht⟩ := hnext
  exact ⟨t, ht, step_inputs hin ht⟩

end Sys2Proof.Machine
end

section
/-! PROOF. The good frames (30_encoding R79, R82; O50, O56): exactly one decodes to two given fields with given reserved bytes,
the frame the statement `good` makes. -/

namespace Sys2Proof.Machine

theorem u16_lowByte_highByte (f : Half) : u16 (lowByte f) (highByte f) = f := by
  apply BitVec.eq_of_toNat_eq
  have hf := f.isLt
  rw [u16, toNat_append_eq_add, highByte, lowByte, BitVec.extractLsb'_toNat, BitVec.extractLsb'_toNat,
    Nat.shiftRight_zero, Nat.shiftRight_eq_div_pow]
  omega

/-- `Sum8` of a payload with these fields and reserved bytes (42_validation_and_scaling R151). -/
def payloadSum (p25 p10 : Half) (r6 r7 : Byte) : Byte :=
  [lowByte p25, highByte p25, lowByte p10, highByte p10, r6, r7].foldl add8 0x00#8

/-- The frame of a good measurement with these fields and reserved bytes. -/
def goodFrame (p25 p10 : Half) (r6 r7 : Byte) : Frame :=
  #v[magic0, magic1, lowByte p25, highByte p25, lowByte p10, highByte p10, r6, r7, payloadSum p25 p10 r6 r7, tailMagic]

theorem framePm25Raw_goodFrame (p25 p10 : Half) (r6 r7 : Byte) : framePm25Raw (goodFrame p25 p10 r6 r7) = p25 :=
  u16_lowByte_highByte p25

theorem framePm10Raw_goodFrame (p25 p10 : Half) (r6 r7 : Byte) : framePm10Raw (goodFrame p25 p10 r6 r7) = p10 :=
  u16_lowByte_highByte p10

/-- It decodes to its fields (R170). -/
theorem decodeFrame_goodFrame (fmt : FloatFmt) (p25 p10 : Half) (r6 r7 : Byte) :
    decodeFrame fmt (goodFrame p25 p10 r6 r7) = .measurement p25 p10 (scale fmt p25) (scale fmt p10) := by
  have hmagic : magicOK (goodFrame p25 p10 r6 r7) = true := rfl
  have hck : ckOK (goodFrame p25 p10 r6 r7) = true := beq_self_eq_true _
  simp [decodeFrame, hmagic, hck, framePm25Raw_goodFrame, framePm10Raw_goodFrame]

theorem outcomeIsOk_goodFrame (fmt : FloatFmt) (p25 p10 : Half) (r6 r7 : Byte) :
    outcomeIsOk (decodeFrame fmt (goodFrame p25 p10 r6 r7)) = true := by
  rw [decodeFrame_goodFrame, outcomeIsOk]

/-- A frame is OK exactly when it passes both checks (R170). -/
theorem outcomeIsOk_decodeFrame (fmt : FloatFmt) (B : Frame) :
    outcomeIsOk (decodeFrame fmt B) = (magicOK B && ckOK B) := by
  unfold decodeFrame
  cases magicOK B <;> cases ckOK B <;> rfl

theorem frame_toList (B : Frame) : B.toList = [B[0], B[1], B[2], B[3], B[4], B[5], B[6], B[7], B[8], B[9]] := by
  refine List.ext_getElem (Vector.length_toList ..) fun k hk _ => ?_
  rw [Vector.getElem_toList]
  rw [Vector.length_toList] at hk
  interval_cases k <;> rfl

/-- The sum of a frame is that of its fields and reserved bytes. -/
theorem sum8_eq_payloadSum (B : Frame) : sum8 B = payloadSum (framePm25Raw B) (framePm10Raw B) B[6] B[7] := by
  simp only [payloadSum, framePm25Raw, framePm10Raw, lowByte_u16, highByte_u16]
  rw [sum8, frame_toList]
  rfl

/-- Both checks leave a frame no freedom but its fields and reserved bytes. -/
theorem eq_goodFrame_of_ok {fmt : FloatFmt} {B : Frame} (h : outcomeIsOk (decodeFrame fmt B) = true) :
    B = goodFrame (framePm25Raw B) (framePm10Raw B) B[6] B[7] := by
  simp only [outcomeIsOk_decodeFrame, magicOK, ckOK, Bool.and_eq_true, beq_iff_eq] at h
  obtain ⟨⟨⟨h0, h1⟩, h9⟩, h8⟩ := h
  rw [sum8_eq_payloadSum] at h8
  refine Vector.ext fun k hk => ?_
  interval_cases k
  · exact h0
  · exact h1
  · exact (lowByte_u16 ..).symm
  · exact (highByte_u16 ..).symm
  · exact (lowByte_u16 ..).symm
  · exact (highByte_u16 ..).symm
  · rfl
  · rfl
  · exact h8
  · exact h9

/-- A good frame is its two fields and its two reserved bytes. -/
def goodFrameEquiv (fmt : FloatFmt) :
    Half × Half × Byte × Byte ≃ Subtype fun B : Frame => outcomeIsOk (decodeFrame fmt B) = true where
  toFun p := ⟨goodFrame p.1 p.2.1 p.2.2.1 p.2.2.2, outcomeIsOk_goodFrame ..⟩
  invFun B := (framePm25Raw B.1, framePm10Raw B.1, B.1[6], B.1[7])
  left_inv p := Prod.ext (framePm25Raw_goodFrame ..) (Prod.ext (framePm10Raw_goodFrame ..) rfl)
  right_inv B := Subtype.ext (eq_goodFrame_of_ok B.2).symm

theorem natCard_bitVec (n : Nat) : Nat.card (BitVec n) = 2 ^ n := by
  rw [Nat.card_congr BitVec.equivFin.toEquiv, Nat.card_fin]

/-- Settles O50: the good frames are the choices of two 16-bit fields and two reserved bytes. -/
theorem numberOfGoodFrames : Obligations.NumberOfGoodFrames := by
  intro fmt
  rw [← Nat.card_congr (goodFrameEquiv fmt), Nat.card_prod, Nat.card_prod, Nat.card_prod, natCard_bitVec, natCard_bitVec]
  norm_num

/-! The literals of `good` (R82). -/

theorem lowByte_ofNat (n : Nat) : lowByte (BitVec.ofNat 16 n) = BitVec.ofNat 8 (n % 256) := by
  apply BitVec.eq_of_toNat_eq
  rw [lowByte, BitVec.extractLsb'_toNat, BitVec.toNat_ofNat, BitVec.toNat_ofNat, Nat.shiftRight_zero]
  omega

theorem highByte_ofNat {n : Nat} (h : n ≤ 65535) : highByte (BitVec.ofNat 16 n) = BitVec.ofNat 8 (n / 256) := by
  apply BitVec.eq_of_toNat_eq
  rw [highByte, BitVec.extractLsb'_toNat, BitVec.toNat_ofNat, BitVec.toNat_ofNat, Nat.shiftRight_eq_div_pow]
  omega

/-- The checksum literal of `good` is the sum of its payload. -/
theorem payloadSum_ofNat {p25 p10 : Nat} (r6 r7 : Nat) (h25 : p25 ≤ 65535) (h10 : p10 ≤ 65535) :
    payloadSum (BitVec.ofNat 16 p25) (BitVec.ofNat 16 p10) (BitVec.ofNat 8 r6) (BitVec.ofNat 8 r7) =
      BitVec.ofNat 8 ((p25 % 256 + p25 / 256 + p10 % 256 + p10 / 256 + r6 + r7) % 256) := by
  simp only [payloadSum, lowByte_ofNat, highByte_ofNat h25, highByte_ofNat h10, List.foldl, add8, ← BitVec.ofNat_add]
  apply BitVec.eq_of_toNat_eq
  rw [BitVec.toNat_ofNat, BitVec.toNat_ofNat]
  omega

/-- The words of `good` carry the good frame of its operands. -/
theorem goodLiterals_words {p25 p10 : Nat} (r6 r7 : Nat) (h25 : p25 ≤ 65535) (h10 : p10 ≤ 65535) :
    (goodLiterals p25 p10 r6 r7).map literalWord =
      frameWords (goodFrame (BitVec.ofNat 16 p25) (BitVec.ofNat 16 p10) (BitVec.ofNat 8 r6) (BitVec.ofNat 8 r7)) := by
  simp only [goodFrame, payloadSum_ofNat r6 r7 h25 h10, lowByte_ofNat, highByte_ofNat h25, highByte_ofNat h10]
  rfl

/-- Settles O56: the frame that the words of `good` carry decodes to its fields. -/
theorem goodStatementMakesGoodFrame : Obligations.GoodStatementMakesGoodFrame := by
  intro fmt p25 p10 r6 r7 h25 h10 h6 h7
  refine ⟨_, ?words, ?rsv0, ?rsv1, decodeFrame_goodFrame fmt _ _ (BitVec.ofNat 8 r6) (BitVec.ofNat 8 r7)⟩
  case words =>
    rw [← goodLiterals_words r6 r7 h25 h10]
    simp [stmtWords, rawLiteralOk, byteLiteralOk, h25, h10, h6, h7]
  case rsv0 => exact Nat.mod_eq_of_lt (Nat.lt_succ_of_le h6)
  case rsv1 => exact Nat.mod_eq_of_lt (Nat.lt_succ_of_le h7)

end Sys2Proof.Machine
end

section
/-! PROOF. The words of the other statements and the literals the transcriber refuses (30_encoding R81, R82; O57). -/

namespace Sys2Proof.Machine

/-- The word of a byte literal is `0x100 | n` (R72). -/
theorem literalWord_eq {n : Nat} (h : n ≤ 255) : literalWord n = BitVec.ofNat 10 (0x100 ||| n) := by
  have hn : (BitVec.ofNat 8 n).setWidth 10 = BitVec.ofNat 10 n := by
    apply BitVec.eq_of_toNat_eq
    rw [BitVec.toNat_setWidth, BitVec.toNat_ofNat, BitVec.toNat_ofNat]
    omega
  rw [literalWord, byteWord, hn, BitVec.ofNat_or]

/-- Settles O57: the bounds on the literals, statement by statement. -/
theorem statementsAndRefusedLiterals : Obligations.StatementsAndRefusedLiterals := by
  refine ⟨rfl, rfl, fun n hn => ?byte, fun n hn => ?byteRefused, fun k hk => ?idle, rfl, fun bs hbs => ?frame⟩
  case byte => simp [stmtWords, byteLiteralOk, hn, literalWord_eq hn]
  case byteRefused => simp [stmtWords, byteLiteralOk, hn]
  case idle => simp [stmtWords, idleCountOk, Nat.one_le_iff_ne_zero.1 hk]
  case frame =>
    have hbad : frameLiteralsOk bs = false := by
      simpa [frameLiteralsOk, byteLiteralOk, imp_iff_not_or] using hbs
    simp [stmtWords, hbad]

end Sys2Proof.Machine
end

section
/-! PROOF. The three transactions (40_transactions): the BYTE dispatch outside a row's guard (R102; O12), the step of each kind of
word (R100, R101, R105; O13, O14, O15) and its run while halted (O54), acceptance (R103; O16) and the position (R104; O17). -/

namespace Sys2Proof.Machine

/-! Outside its guard a BYTE row stops by name. -/

/-- A BYTE row is BYTE.REFUSED, or an acceptance at the one position that its guard names. -/
theorem byteRow_cases {i : Instr} {b : Byte} (hb : operandByte i = some b) :
    i = .byteRefused b ∨
      ∃ p write, exec i = acceptAt p write ∧
        ∀ rstSeen halted idx, tableGuard rstSeen halted idx i = (rstSeen && !halted && idx == p) := by
  cases i
  case reset => cases hb
  case idle => cases hb
  case byteRefused => cases hb; exact .inl rfl
  all_goals exact .inr ⟨_, _, rfl, fun _ _ _ => rfl⟩

/-- The stop of a BYTE row that does not complete, in the order of R102. -/
def byteStop (s : State) : Host.Outcome State Fault Refusal :=
  if s.rstSeen = false then .fault .notReset
  else if s.halted = false ∧ 9 < s.idx.toNat then .refused .unreachableIdx
  else .refused .notSelected

theorem acceptAt_outside_guard {p : Pos} (write : State → State) {s : State}
    (h : (s.rstSeen && !s.halted && s.idx == p) = false) : acceptAt p write s = byteStop s := by
  unfold acceptAt byteStop
  cases hrst : s.rstSeen
  · rfl
  cases hhalted : s.halted
  · have hidx : s.idx ≠ p := by simpa [hrst, hhalted] using h
    simp [hidx]
  · simp

theorem refuseByte_outside_guard {s : State} (h : (s.rstSeen && s.halted) = false) : refuseByte s = byteStop s := by
  unfold refuseByte byteStop
  cases hrst : s.rstSeen
  · rfl
  have hrun : s.halted = false := by simpa [hrst] using h
  simp [hrun]

/-- Settles O12: both kinds of BYTE row stop alike outside their guard. -/
theorem byteRowStopsOutsideGuard : Obligations.ByteRowStopsOutsideGuard := by
  intro i b s hb hguard
  obtain rfl | ⟨p, write, hrow, hcolumn⟩ := byteRow_cases hb
  · exact refuseByte_outside_guard hguard
  · rw [hrow]
    exact acceptAt_outside_guard write (hcolumn .. ▸ hguard)

/-! The step of each kind of word; RESET's is `step_of_fieldR`. -/

/-- A word with `r = v = 0` writes no register, whatever its field `b` (R101). -/
theorem step_of_idle {s : State} {w : Word} {rest : List Word} (hin : s.inputs = w :: rest) (hr : fieldR w = false)
    (hv : fieldV w = false) : step s = .next (passStep (s.setInputs rest)) := by
  have hd : decode s.rstSeen s.halted s.idx w = .instr .idle := by rw [decode, decodeT_of_neither w hr hv]
  exact (step_of_decode_instr hin hd).trans ((exec_idle_iff _ _).2 rfl)

/-- While halted every word other than RESET is consumed and writes no register (R101, R105). -/
theorem step_of_halted {s : State} {w : Word} {rest : List Word} (hin : s.inputs = w :: rest) (hrst : s.rstSeen = true)
    (hhalted : s.halted = true) (hr : fieldR w = false) : step s = .next (s.setInputs rest) := by
  cases hv : fieldV w
  · have hkeep : passStep (s.setInputs rest) = s.setInputs rest := passStep_of_rstSeen hrst
    rw [step_of_idle hin hr hv, hkeep]
  · have hd : decode s.rstSeen s.halted s.idx w = .instr (.byteRefused (fieldB w)) := by
      simp only [hrst, hhalted, decode, decodeT_of_fieldV w hr hv, selectByte_halted]
    exact (step_of_decode_instr hin hd).trans ((exec_byteRefused_iff ..).2 ⟨hrst, hhalted, rfl⟩)

/-- Settles O13: RESET's written state is R39's, and a word with `r = 1` executes it. -/
theorem resetWritesEveryRegister : Obligations.ResetWritesEveryRegister :=
  fun s => ⟨(exec_reset_iff s _).2 rfl, fun _ _ hr => step_of_fieldR rfl hr⟩

/-- Settles O14: IDLE's written state, in every state and after a RESET. -/
theorem idleChangesNoRegister : Obligations.IdleChangesNoRegister := by
  refine fun s => ⟨?exec, fun hrst => (exec_idle_iff s s).2 (passStep_of_rstSeen hrst).symm, fun w rest hr hv => ?step⟩
  case exec =>
    obtain ⟨n, hn⟩ := passStep_eq s
    exact ⟨n, (exec_idle_iff _ _).2 hn.symm⟩
  case step =>
    obtain ⟨n, hn⟩ := passStep_eq { s with inputs := rest }
    exact ⟨n, (step_of_idle rfl hr hv).trans (congrArg _ hn)⟩

/-- Settles O15: BYTE.REFUSED answers the state as it was, and `in_ready` is the negation of `halted`. -/
theorem refusedByteChangesNothing : Obligations.RefusedByteChangesNothing := by
  intro s b rest hrst hhalted
  refine ⟨?exec, step_byteWord_halted rfl hrst hhalted, accepts_of_halted _ hhalted, ?ready⟩
  case exec => exact (exec_byteRefused_iff b s s).2 ⟨hrst, hhalted, rfl⟩
  case ready => rw [outInReady_of_rstSeen hrst, hhalted, Bool.not_true]

/-- Settles O54: by induction on the words, each of which leaves the state halted. -/
theorem haltedUntilReset : Obligations.HaltedUntilReset := by
  intro s ws rest hrst hhalted hno
  induction ws with
  | nil => rfl
  | cons w ws ih =>
    simp only [noReset, List.all_cons, Bool.and_eq_true, Bool.not_eq_true'] at hno
    obtain ⟨hr, hno'⟩ := hno
    have hstep : step { s with inputs := w :: ws ++ rest } = .next { s with inputs := ws ++ rest } :=
      step_of_halted rfl hrst hhalted hr
    exact (runSteps_succ_of_next ws.length hstep).trans (ih hno')

/-! Acceptance and the position. -/

/-- R103, by the fields of the word. -/
theorem accepts_iff (s : State) (w : Word) :
    accepts s w = true ↔ fieldR w = false ∧ fieldV w = true ∧ s.rstSeen = true ∧ s.halted = false := by
  simp [accepts, and_assoc]

/-- Settles O16: after a RESET, `in_ready` is the last two conjuncts of R103. -/
theorem acceptanceCondition : Obligations.AcceptanceCondition := by
  refine fun s w => ⟨accepts_iff s w, fun hrst => (accepts_iff s w).trans ?_⟩
  rw [outInReady_of_rstSeen hrst, Bool.not_eq_true']
  simp [hrst, fieldR, fieldV]

/-- The row of an accepted byte runs at a legal position and advances it, whatever the byte (R104). -/
theorem exec_idx_of_position {idx : Pos} {i : Instr} {b : Byte} {s t : State} (hb : operandByte i = some b)
    (hguard : tableGuard true false idx i = true) (h : exec i s = .next t) :
    s.idx.toNat ≤ 9 ∧ t.idx = nextPos s.idx := by
  obtain ⟨p, write, hrow⟩ := exec_eq_acceptAt hb hguard
  rw [hrow, acceptAt_next_iff] at h
  obtain ⟨-, -, hle, -, rfl⟩ := h
  exact ⟨hle, rfl⟩

/-- What a step that answers a next state leaves of the position: of the four things it can be, RESET and the accepted byte alone
write it. -/
theorem step_idx {s t : State} {w : Word} {rest : List Word} (hin : s.inputs = w :: rest) (h : step s = .next t) :
    (accepts s w = true → s.idx.toNat ≤ 9 ∧ t.idx = nextPos s.idx) ∧
      (fieldR w = true → t.idx = 0#4) ∧
      (fieldR w = false → accepts s w = false → t.idx = s.idx) := by
  obtain ⟨w', rest', hin', hcases⟩ := step_next_cases h
  obtain ⟨rfl, rfl⟩ := List.cons.inj (hin'.symm.trans hin)
  obtain ⟨hr, rfl⟩ | ⟨hr, hv, rfl⟩ | ⟨hr, -, -, hhalted, rfl⟩ | ⟨hr, hv, hrst, hrun, i, -, hb, hguard, hexec⟩ := hcases
  · simp [accepts, hr, State.reset]
  · simp [accepts, hr, hv]
  · simp [accepts, hr, hhalted]
  · have hidx : s.idx.toNat ≤ 9 ∧ t.idx = nextPos s.idx :=
      exec_idx_of_position (s := s.setInputs rest') hb hguard hexec
    simp [accepts, hr, hv, hrst, hrun, hidx]

/-- Settles O17: R104 for the words that R103 accepts, for RESET, and for all others. -/
theorem positionSequencing : Obligations.PositionSequencing := by
  intro s t w rest hin h
  obtain ⟨haccepted, hreset, hother⟩ := step_idx hin h
  refine ⟨fun hacc => haccepted ((accepts_iff s w).2 hacc), hreset, fun hr hnot => hother hr ?_⟩
  rw [← Bool.not_eq_true, accepts_iff]
  exact fun ⟨_, hacc⟩ => hnot hacc

end Sys2Proof.Machine
end

section
/-! PROOF. The frame byte rows before the tail (41_frame_bytes R120 to R128; O18 to O25): each row's written state, by its meaning
and by a step of the byte's word, once for all rows. -/

namespace Sys2Proof.Machine

/-- The row of position `p`, when all it does in RUN mode at `p` is the write `write`: so does a step of its byte's word, with
the word consumed (30_encoding R73). -/
theorem exec_and_step_of_row {p : Pos} {i : Instr} {b : Byte} {write : State → State}
    (hrow : ∀ u t, exec i u = .next t ↔ u.rstSeen = true ∧ u.halted = false ∧ u.idx = p ∧ t = write u)
    (hsel : selectPosition p b = .instr i) {s : State} (hrst : s.rstSeen = true) (hrun : s.halted = false)
    (hidx : s.idx = p) (rest : List Word) :
    exec i s = .next (write s) ∧
      step { s with inputs := byteWord b :: rest } = .next (write { s with inputs := rest }) := by
  refine ⟨(hrow _ _).2 ⟨hrst, hrun, hidx, rfl⟩, ?step⟩
  case step =>
    rw [← hidx] at hsel
    exact step_byteWord_run rfl hrst hrun hsel ((hrow _ _).2 ⟨hrst, hrun, hidx, rfl⟩)

/-- Settles O18: the header match and the clearing of `res_valid` are the row's writes. -/
theorem magic0StartsHeaderMatch : Obligations.Magic0StartsHeaderMatch :=
  fun _ b rest hrst hrun hidx => exec_and_step_of_row (exec_byteMagic0_iff b) rfl hrst hrun hidx rest

/-- Settles O19: the header match, continued from the value before the byte. -/
theorem magic1ContinuesHeaderMatch : Obligations.Magic1ContinuesHeaderMatch :=
  fun _ b rest hrst hrun hidx => exec_and_step_of_row (exec_byteMagic1_iff b) rfl hrst hrun hidx rest

/-- Settles O20: the sum is overwritten, and the high byte of the field is kept. -/
theorem p25lRestartsSumAndFillsLowByte : Obligations.P25lRestartsSumAndFillsLowByte :=
  fun _ b rest hrst hrun hidx => exec_and_step_of_row (exec_byteP25l_iff b) rfl hrst hrun hidx rest

/-- The 8-bit sum is the sum mod 256 (42_validation_and_scaling R174). -/
theorem add8_eq_ofNat (a b : Byte) : add8 a b = BitVec.ofNat 8 ((a.toNat + b.toNat) % 256) := by
  apply BitVec.eq_of_toNat_eq
  rw [add8, BitVec.toNat_add, BitVec.toNat_ofNat, Nat.mod_mod]

/-- Settles O21: the sum mod 256 is `add8`, and the low byte of the field is kept. -/
theorem p25hAddsAndFillsHighByte : Obligations.P25hAddsAndFillsHighByte := by
  intro s b rest hrst hrun hidx
  rw [← add8_eq_ofNat]
  exact exec_and_step_of_row (exec_byteP25h_iff b) rfl hrst hrun hidx rest

/-- Settles O22: the low byte of PM10 adds to the sum, where that of PM2.5 restarted it. -/
theorem p10lAddsAndFillsLowByte : Obligations.P10lAddsAndFillsLowByte := by
  intro s b rest hrst hrun hidx
  rw [← add8_eq_ofNat]
  exact exec_and_step_of_row (exec_byteP10l_iff b) rfl hrst hrun hidx rest

/-- Settles O23: the row of PM2.5's high byte, on `f10`. -/
theorem p10hAddsAndFillsHighByte : Obligations.P10hAddsAndFillsHighByte := by
  intro s b rest hrst hrun hidx
  rw [← add8_eq_ofNat]
  exact exec_and_step_of_row (exec_byteP10h_iff b) rfl hrst hrun hidx rest

/-- Settles O24: the sum is the only register of a reserved byte's row beside the position. -/
theorem reservedBytesOnlySummed : Obligations.ReservedBytesOnlySummed := by
  refine ⟨fun s b rest hrst hrun hidx => ?rsv0, fun s b rest hrst hrun hidx => ?rsv1⟩ <;> rw [← add8_eq_ofNat]
  case rsv0 => exact exec_and_step_of_row (exec_byteRsv0_iff b) rfl hrst hrun hidx rest
  case rsv1 => exact exec_and_step_of_row (exec_byteRsv1_iff b) rfl hrst hrun hidx rest

/-- Settles O25: the comparison is with the accumulator before the byte, which the row does not write. -/
theorem cksumComparesWithAccumulator : Obligations.CksumComparesWithAccumulator :=
  fun _ b rest hrst hrun hidx => exec_and_step_of_row (exec_byteCksum_iff b) rfl hrst hrun hidx rest

end Sys2Proof.Machine
end

section
/-! PROOF. The completion at the tail (41_frame_bytes R129, 60_exceptions R193, R194): its three outcomes (O26), the status word
each leaves (O27), and that an error outcome stays with the halt (O35). -/

namespace Sys2Proof.Machine

/-! The outcome by what the tail byte and the two running checks say. -/

/-- The header and the tail match (R129). -/
theorem hdrOk_and_tailMatches_iff (s : State) (b : Byte) :
    (s.hdrOk && tailMatches b) = true ↔ s.hdrOk = true ∧ b = 0xAB#8 := by
  simp [tailMatches, tailMagic]

/-- A header or tail failure wins, whatever the checksum (R194). -/
theorem completeFrame_of_badHeader {s : State} {b : Byte} (hbad : ¬(s.hdrOk = true ∧ b = 0xAB#8)) :
    completeFrame (tailMatches b) s = ((s.setResult .invalidHeader 0#16 0#16).setHalted true).setResValid true := by
  rw [← hdrOk_and_tailMatches_iff] at hbad
  obtain ⟨-, hc⟩ | ⟨hok, -⟩ | ⟨hok, -⟩ := completeFrame_cases (tailMatches b) s
  · exact hc
  · exact absurd hok hbad
  · exact absurd hok hbad

theorem completeFrame_of_badChecksum {s : State} {b : Byte} (hhdr : s.hdrOk = true ∧ b = 0xAB#8) (hck : s.ckOk = false) :
    completeFrame (tailMatches b) s = ((s.setResult .checksumMismatch 0#16 0#16).setHalted true).setResValid true := by
  rw [← hdrOk_and_tailMatches_iff] at hhdr
  obtain ⟨hbad, -⟩ | ⟨-, -, hc⟩ | ⟨-, hok, -⟩ := completeFrame_cases (tailMatches b) s
  · simp [hhdr] at hbad
  · exact hc
  · simp [hck] at hok

theorem completeFrame_of_good {s : State} {b : Byte} (hhdr : s.hdrOk = true ∧ b = 0xAB#8) (hck : s.ckOk = true) :
    completeFrame (tailMatches b) s = (s.setResult .ok s.f25 s.f10).setResValid true := by
  rw [← hdrOk_and_tailMatches_iff] at hhdr
  obtain ⟨hbad, -⟩ | ⟨-, hbad, -⟩ | ⟨-, -, hc⟩ := completeFrame_cases (tailMatches b) s
  · simp [hhdr] at hbad
  · simp [hck] at hbad
  · exact hc

/-- Settles O26: the tail's row completes the frame, by its meaning and by a step, and consuming the word changes no check. -/
theorem tailCompletesFrame : Obligations.TailCompletesFrame := by
  intro s b rest hrst hrun hidx
  obtain ⟨hexec, hstep⟩ := exec_and_step_of_row (exec_byteTail_iff b) rfl hrst hrun hidx rest
  refine ⟨fun hbad => ?badHeader, fun ⟨hhdr, htail, hck⟩ => ?badChecksum, fun ⟨hhdr, htail, hck⟩ => ?good⟩
  case badHeader =>
    rw [completeFrame_of_badHeader hbad] at hexec
    rw [completeFrame_of_badHeader (s := { s with inputs := rest }) hbad] at hstep
    exact ⟨hexec, hstep⟩
  case badChecksum =>
    rw [completeFrame_of_badChecksum ⟨hhdr, htail⟩ hck] at hexec
    rw [completeFrame_of_badChecksum (s := { s with inputs := rest }) ⟨hhdr, htail⟩ hck] at hstep
    exact ⟨hexec, hstep⟩
  case good =>
    rw [completeFrame_of_good ⟨hhdr, htail⟩ hck] at hexec
    rw [completeFrame_of_good (s := { s with inputs := rest }) ⟨hhdr, htail⟩ hck] at hstep
    exact ⟨hexec, hstep⟩

/-- Settles O27: the status word packs position 0, `res_valid = 1` and the outcome's code and halt. -/
theorem statusWordAfterCompletion : Obligations.StatusWordAfterCompletion := by
  intro s t b _ h
  obtain ⟨hrst, hrun, -, rfl⟩ := (exec_byteTail_iff b s t).1 h
  by_cases hhdr : s.hdrOk = true ∧ b = 0xAB#8
  · rw [if_pos hhdr]
    cases hck : s.ckOk
    · simp [completeFrame_of_badChecksum hhdr hck, outStat, packStat, statusCode, hrst]
    · simp [completeFrame_of_good hhdr hck, outStat, packStat, statusCode, hrst, hrun]
  · rw [if_neg hhdr]
    simp [completeFrame_of_badHeader hhdr, outStat, packStat, statusCode, hrst]

/-! An error outcome stays with the halt. -/

/-- `status` reports one of the two frame errors (10_state R33). -/
abbrev FrameStatus.IsError (st : FrameStatus) : Prop := st = .invalidHeader ∨ st = .checksumMismatch

@[simp] theorem passStep_status (s : State) : (passStep s).status = s.status := by
  obtain ⟨n, hn⟩ := passStep_eq s
  rw [hn]

/-- A completion that reports an error halts (R193). -/
theorem completeFrame_halted_of_error {tailOk : Bool} {s : State} (h : (completeFrame tailOk s).status.IsError) :
    (completeFrame tailOk s).halted = true := by
  obtain ⟨-, hc⟩ | ⟨-, -, hc⟩ | ⟨-, -, hc⟩ := completeFrame_cases tailOk s
  · simp [hc]
  · simp [hc]
  · simp [hc, FrameStatus.IsError] at h

/-- Of what an instruction can leave visible, only RESET and a completion write the outcome or the halt. -/
theorem exec_keeps_error_halted {i : Instr} {s t : State} (hs : s.status.IsError → s.halted = true)
    (h : exec i s = .next t) : t.status.IsError → t.halted = true := by
  obtain rfl | rfl | ⟨-, rfl⟩ | ⟨-, -, -, -, hsame⟩ | ⟨b, -, -, -, rfl⟩ := exec_next_cases h
  · exact nofun
  · simpa using hs
  · exact hs
  · rwa [hsame.status, hsame.halted]
  · exact completeFrame_halted_of_error

/-- Settles O35: no outcome is reported at reset, and a step is an instruction. -/
theorem errorCodeOnlyWhileHalted : Obligations.ErrorCodeOnlyWhileHalted := by
  refine ⟨nofun, fun s t hs h => ?_⟩
  obtain ⟨w, rest, i, -, -, hexec⟩ := step_next_exec h
  exact exec_keeps_error_halted (s := s.setInputs rest) hs hexec

end Sys2Proof.Machine
end

section
/-! PROOF. The frame functions in numbers (42_validation_and_scaling R151, R152, R170): O47, O48, O49, and the decimal view
(R163): O46. -/

namespace Sys2Proof.Machine

/-- The checksum as a number: the carries of the six 8-bit sums are discarded together. -/
theorem sum8_toNat (B : Frame) :
    (sum8 B).toNat = (B[2].toNat + B[3].toNat + B[4].toNat + B[5].toNat + B[6].toNat + B[7].toNat) % 256 := by
  rw [sum8, frame_toList]
  simp only [ckFirst, ckLast, Nat.reduceAdd, Nat.reduceSub, List.drop, List.take, List.foldl, add8, BitVec.toNat_add,
    BitVec.toNat_ofNat]
  omega

theorem ckOK_iff (B : Frame) : ckOK B = true ↔ B[8] = sum8 B := beq_iff_eq

theorem magicOK_iff (B : Frame) : magicOK B = true ↔ B[0] = 0xAA#8 ∧ B[1] = 0xC0#8 ∧ B[9] = 0xAB#8 := by
  simp [magicOK, magic0, magic1, tailMagic, and_assoc]

theorem u16_toNat (lo hi : Byte) : (u16 lo hi).toNat = hi.toNat * 256 + lo.toNat := toNat_append_eq_add hi lo

/-- Settles O47: the sum as a number, and the compare of byte 8 with it. -/
theorem checksumIsSumOfPayload : Obligations.ChecksumIsSumOfPayload := fun B => ⟨sum8_toNat B, ckOK_iff B⟩

/-- Settles O48: each field is the little-endian field of its two bytes. -/
theorem fieldsAreLittleEndian : Obligations.FieldsAreLittleEndian := fun _ => ⟨u16_toNat .., u16_toNat ..⟩

/-- Settles O49: `Decode` asks the two checks in order, and the second compares numbers below 256. -/
theorem decodeValidationOrder : Obligations.DecodeValidationOrder := by
  intro fmt B
  simp only [← magicOK_iff, ← sum8_toNat, ne_eq, ← BitVec.toNat_eq, ← ckOK_iff, Bool.not_eq_true]
  refine ⟨fun hm => ?header, fun hm hck => ?checksum, fun hm hck => ?fields⟩
  case header => simp [decodeFrame, hm]
  case checksum => simp [decodeFrame, hm, hck]
  case fields => simp only [decodeFrame, hm, hck]; rfl

/-- Settles O46: division with remainder by 10, and 65535 bounds the integer part. -/
theorem exactDecimalView : Obligations.ExactDecimalView := by
  intro raw
  have hraw := raw.isLt
  have hparts : raw.toNat = 10 * wholeUnits raw + tenthsDigit raw := (Nat.div_add_mod raw.toNat 10).symm
  refine ⟨?value, ?whole, ?tenths⟩
  case value =>
    rw [hparts]
    push_cast
    ring
  case whole =>
    rw [wholeUnits, scaleDiv]
    omega
  case tenths => exact Nat.le_of_lt_succ (Nat.mod_lt _ (by decide))

end Sys2Proof.Machine
end

section
/-! PROOF. Runs without RESET (42_validation_and_scaling R171, R172): after a RESET a step moves the registers by the transaction
its word asks for alone, so a run leaves the registers that the bytes it offers would leave as canonical words (O53), and those go
through `Decode` frame by frame (O52). -/

namespace Sys2Proof.Machine

/-! The registers move alike whatever the model's own two fields hold. -/

/-- The same registers, with other words to offer and another count of draws. -/
def State.withOwn (s : State) (ws : List Word) (n : Nat) : State := { s with inputs := ws, draws := n }

/-- The completion neither reads nor writes the model's own fields. -/
theorem completeFrame_withOwn (tailOk : Bool) (s : State) (ws : List Word) (n : Nat) :
    completeFrame tailOk (s.withOwn ws n) = (completeFrame tailOk s).withOwn ws n := by
  cases s with
  | mk _ _ _ hdrOk _ ckOk => cases hdrOk <;> cases tailOk <;> cases ckOk <;> rfl

/-- After a RESET no instruction's meaning rests on the model's own fields. -/
theorem exec_withOwn {i : Instr} {s t : State} (hrst : s.rstSeen = true) (h : exec i s = .next t) (ws : List Word) (n : Nat) :
    exec i (s.withOwn ws n) = .next (t.withOwn ws n) := by
  cases i
  case reset =>
    obtain rfl := (exec_reset_iff s t).1 h
    rfl
  case idle =>
    obtain rfl := (exec_idle_iff s t).1 h
    rw [passStep_of_rstSeen hrst]
    exact (exec_idle_iff ..).2 (passStep_of_rstSeen (s := s.withOwn ws n) hrst).symm
  case byteRefused b =>
    obtain ⟨-, hh, rfl⟩ := (exec_byteRefused_iff b s t).1 h
    exact (exec_byteRefused_iff ..).2 ⟨hrst, hh, rfl⟩
  case byteTail b =>
    obtain ⟨-, hh, hi, rfl⟩ := (exec_byteTail_iff b s t).1 h
    refine (exec_byteTail_iff ..).2 ⟨hrst, hh, hi, ?_⟩
    rw [completeFrame_withOwn]
    rfl
  all_goals
    simp only [exec_byteMagic0_iff, exec_byteMagic1_iff, exec_byteP25l_iff, exec_byteP25h_iff, exec_byteP10l_iff,
      exec_byteP10h_iff, exec_byteRsv0_iff, exec_byteRsv1_iff, exec_byteCksum_iff] at h ⊢
    obtain ⟨-, hh, hi, rfl⟩ := h
    exact ⟨hrst, hh, hi, rfl⟩

/-- A step moves the registers by the transaction of its word alone: the ignored bits do not matter (30_encoding R72), nor the
words after it. -/
theorem step_withOwn {s t : State} {w w' : Word} {rest : List Word} (hrst : s.rstSeen = true) (hin : s.inputs = w :: rest)
    (hw : decodeT w' = decodeT w) (h : step s = .next t) (rest' : List Word) (n : Nat) :
    step (s.withOwn (w' :: rest') n) = .next (t.withOwn rest' n) := by
  obtain ⟨v, vs, i, hin', hd, hexec⟩ := step_next_exec h
  obtain ⟨rfl, rfl⟩ := List.cons.inj (hin.symm.trans hin')
  have hd' : decode s.rstSeen s.halted s.idx w' = .instr i := by
    rw [← hd]
    simp only [decode, hw]
  exact (step_of_decode_instr (s := s.withOwn (w' :: rest') n) rfl hd').trans
    (exec_withOwn (s := s.setInputs rest) hrst hexec rest' n)

/-! The canonical words of the bytes that a run offers. -/

/-- The canonical BYTE words (30_encoding R72) of the bytes that the words offer. -/
def canonicalWords (ws : List Word) : List Word := (offeredBytes ws).map byteWord

theorem canonicalWords_cons (w : Word) (ws : List Word) :
    canonicalWords (w :: ws) = canonicalWords [w] ++ canonicalWords ws := by
  simp only [canonicalWords, offeredBytes_cons w ws, List.map_append]

theorem canonicalWords_idle {w : Word} (hr : fieldR w = false) (hv : fieldV w = false) : canonicalWords [w] = [] := by
  simp only [canonicalWords, offeredBytes_idle hr hv, List.map_nil]

theorem canonicalWords_byte {w : Word} (hr : fieldR w = false) (hv : fieldV w = true) :
    canonicalWords [w] = [byteWord (fieldB w)] := by
  simp only [canonicalWords, offeredBytes_byte hr hv, List.map_cons, List.map_nil]

/-- What a step without RESET leaves of the registers is left by the canonical word of its byte, or by no step at all if it
offers none. -/
theorem step_canonical {s t : State} {w : Word} {rest : List Word} (hrst : s.rstSeen = true) (hin : s.inputs = w :: rest)
    (hr : fieldR w = false) (h : step s = .next t) (rest' : List Word) (n : Nat) :
    runSteps (canonicalWords [w]).length (s.withOwn (canonicalWords [w] ++ rest') n) = .next (t.withOwn rest' n) := by
  cases hv : fieldV w
  · rw [step_of_idle hin hr hv] at h
    cases h
    have hkeep : passStep (s.setInputs rest) = s.setInputs rest := passStep_of_rstSeen hrst
    rw [hkeep, canonicalWords_idle hr hv]
    rfl
  · have hw : decodeT (byteWord (fieldB w)) = decodeT w := by rw [decodeT_byteWord, decodeT_of_fieldV w hr hv]
    rw [canonicalWords_byte hr hv]
    exact runSteps_succ_of_next 0 (step_withOwn hrst hin hw h rest' n)

/-- A run without RESET takes every word it is offered, and leaves the registers that the canonical words of its bytes leave:
neither its IDLE steps nor its ignored bits matter (R172). -/
theorem run_canonical {ws rest : List Word} {s : State} (hs : s.Inv) (hin : s.inputs = ws ++ rest) (hno : noReset ws = true) :
    ∃ t, runSteps ws.length s = .next t ∧ t.inputs = rest ∧
      ∀ rest' n, runSteps (canonicalWords ws).length (s.withOwn (canonicalWords ws ++ rest') n) = .next (t.withOwn rest' n) := by
  induction ws generalizing s with
  | nil => exact ⟨s, rfl, hin, fun _ _ => rfl⟩
  | cons w ws ih =>
    simp only [noReset, List.all_cons, Bool.and_eq_true, Bool.not_eq_true'] at hno
    obtain ⟨hr, hno'⟩ := hno
    obtain ⟨u, hu, huin⟩ := everyWordRunsAfterReset s w (ws ++ rest) hs hin
    obtain ⟨t, ht, htin, hcanon⟩ := ih (stepKeepsInvariants s u hs hu) huin hno'
    refine ⟨t, (runSteps_succ_of_next ws.length hu).trans ht, htin, fun rest' n => ?_⟩
    obtain ⟨hrst, -⟩ := hs
    have hhead := step_canonical hrst hin hr hu (canonicalWords ws ++ rest') n
    rw [canonicalWords_cons, List.length_append, List.append_assoc, runSteps_add hhead]
    exact hcanon rest' n

/-- A run that begins with RESET leaves the registers that the canonical words of its bytes leave from the reset state. -/
theorem run_from_reset {r : Word} {ws rest : List Word} (s : State) (hr : fieldR r = true) (hno : noReset ws = true) :
    ∃ t, runSteps (ws.length + 1) { s with inputs := r :: (ws ++ rest) } = .next t ∧ t.inputs = rest ∧
      ∀ rest' n, runSteps (canonicalWords ws).length (State.reset.withOwn (canonicalWords ws ++ rest') n) =
        .next (t.withOwn rest' n) := by
  obtain ⟨t, ht, htin, hcanon⟩ := run_canonical (resetRegisters_inv { s with inputs := ws ++ rest }) rfl hno
  exact ⟨t, (runSteps_succ_of_next ws.length (step_of_fieldR rfl hr)).trans ht, htin, hcanon⟩

/-- Settles O53: both runs leave what the canonical words of the same bytes leave from the reset state. -/
theorem outcomeDependsOnBytesAlone : Obligations.OutcomeDependsOnBytesAlone := by
  intro s s' r r' ws ws' hr hr' hno hno' hbytes
  obtain ⟨t, ht, -, hcanon⟩ := run_from_reset (rest := []) s hr hno
  obtain ⟨t', ht', -, hcanon'⟩ := run_from_reset (rest := []) s' hr' hno'
  have hwords : canonicalWords ws = canonicalWords ws' := congrArg (List.map byteWord) hbytes
  rw [List.append_nil] at ht ht'
  rw [hwords] at hcanon
  exact ⟨t, t', ht, ht', fun n => Host.Outcome.next.inj ((hcanon [] n).symm.trans (hcanon' [] n))⟩

/-! Frames offered one after another. -/

theorem frameWords_length (B : Frame) : (frameWords B).length = 10 := by simp [frameWords]

/-- After frames that are all OK the block is in RUN mode at position 0, ready for the next frame. -/
theorem run_good_frames (fmt : FloatFmt) {frames : List Frame} {rest : List Word} {s : State}
    (hok : ∀ F ∈ frames, outcomeIsOk (decodeFrame fmt F) = true) (hin : s.inputs = frames.flatMap frameWords ++ rest)
    (hrst : s.rstSeen = true) (hrun : s.halted = false) (hidx : s.idx = 0#4) :
    ∃ u, runSteps (frames.flatMap frameWords).length s = .next u ∧ u.inputs = rest ∧ u.rstSeen = true ∧ u.halted = false ∧
      u.idx = 0#4 := by
  induction frames generalizing s with
  | nil => exact ⟨s, rfl, hin, hrst, hrun, hidx⟩
  | cons F frames ih =>
    rw [List.forall_mem_cons] at hok
    obtain ⟨hF, hframes⟩ := hok
    obtain ⟨u, hu, huin, hurst, huidx, -, -, -, -, -, huhalted, -⟩ :=
      tenBytesGiveDecode fmt s F (frames.flatMap frameWords ++ rest) hrst hrun hidx
    rw [← List.append_assoc, ← List.flatMap_cons, ← hin] at hu
    obtain ⟨v, hv, hready⟩ := ih hframes huin hurst (by rw [huhalted, hF]; rfl) huidx
    refine ⟨v, ?_, hready⟩
    rw [List.flatMap_cons, List.length_append, frameWords_length, runSteps_add hu, hv]

/-- The registers show the outcome of `Decode(B)` (R171). -/
structure ShowsDecode (fmt : FloatFmt) (B : Frame) (t : State) : Prop where
  rstSeen : t.rstSeen = true
  resValid : t.resValid = true
  code : statusCode t.status = outcomeCode (decodeFrame fmt B)
  halted : t.halted = !outcomeIsOk (decodeFrame fmt B)
  pm25Raw : t.pm25Raw = if outcomeIsOk (decodeFrame fmt B) = true then framePm25Raw B else 0#16
  pm10Raw : t.pm10Raw = if outcomeIsOk (decodeFrame fmt B) = true then framePm10Raw B else 0#16

/-- Good frames and then a frame `B`, offered from the reset state, leave the outcome of `Decode(B)`. -/
theorem run_frames_from_reset (fmt : FloatFmt) {frames : List Frame} (B : Frame) (rest : List Word) (n : Nat)
    (hok : ∀ F ∈ frames, outcomeIsOk (decodeFrame fmt F) = true) :
    ∃ t, runSteps (frames.flatMap frameWords ++ frameWords B).length
        (State.reset.withOwn (frames.flatMap frameWords ++ frameWords B ++ rest) n) = .next t ∧ ShowsDecode fmt B t := by
  obtain ⟨u, hu, huin, hurst, hurun, huidx⟩ := run_good_frames fmt hok
    (s := State.reset.withOwn (frames.flatMap frameWords ++ frameWords B ++ rest) n) (List.append_assoc ..) rfl rfl rfl
  obtain ⟨t, ht, -, htrst, -, hvalid, -, -, -, hcode, hhalted, h25, h10⟩ :=
    tenBytesGiveDecode fmt u B rest hurst hurun huidx
  refine ⟨t, ?_, htrst, hvalid, hcode, hhalted, h25, h10⟩
  rw [← huin] at ht
  rw [List.length_append, frameWords_length, runSteps_add hu]
  exact ht

/-- A measurement carries the fields of the frame and their scaled values (R170). -/
theorem decodeFrame_eq_measurement {fmt : FloatFmt} {B : Frame} {p25 p10 : Half} {f25 f10 : BitVec fmt.width}
    (h : decodeFrame fmt B = .measurement p25 p10 f25 f10) :
    p25 = framePm25Raw B ∧ p10 = framePm10Raw B ∧ f25 = scale fmt p25 ∧ f10 = scale fmt p10 := by
  unfold decodeFrame at h
  split at h
  · cases h
  · split at h
    · cases h
    · cases h
      exact ⟨rfl, rfl, rfl, rfl⟩

/-- The ports show the measurement of an OK frame. -/
theorem ShowsDecode.measurement {fmt : FloatFmt} {B : Frame} {t : State} (h : ShowsDecode fmt B t) {p25 p10 : Half}
    {f25 f10 : BitVec fmt.width} (hB : decodeFrame fmt B = .measurement p25 p10 f25 f10) :
    t.halted = false ∧ outPm25Raw t = p25 ∧ outPm10Raw t = p10 ∧ outPm25F fmt t = f25 ∧ outPm10F fmt t = f10 := by
  obtain ⟨hrst, -, -, hhalted, h25, h10⟩ := h
  obtain ⟨e25, e10, rfl, rfl⟩ := decodeFrame_eq_measurement hB
  have hports := scaledOutputsFollowRawRegisters.1 fmt t hrst
  simpa [hhalted, h25, h10, hB, outcomeIsOk, ← e25, ← e10] using hports

/-- After a frame error the results are cleared and no word is accepted. -/
theorem ShowsDecode.error {fmt : FloatFmt} {B : Frame} {t : State} (h : ShowsDecode fmt B t)
    (hB : outcomeIsOk (decodeFrame fmt B) = false) :
    t.halted = true ∧ outPm25Raw t = 0#16 ∧ outPm10Raw t = 0#16 ∧ ∀ w, accepts t w = false := by
  obtain ⟨hrst, -, -, hhalted, h25, h10⟩ := h
  rw [hB] at hhalted
  exact ⟨hhalted, by simp [outPm25Raw, hrst, h25, hB], by simp [outPm10Raw, hrst, h10, hB],
    fun w => accepts_of_halted w hhalted⟩

/-- Settles O52: the run leaves what the canonical words of its bytes leave, and those are the words of the frames. -/
theorem runAgreesWithDecode : Obligations.RunAgreesWithDecode := by
  intro fmt s r ws rest frames B hr hno hbytes hok
  obtain ⟨t, ht, htin, hcanon⟩ := run_from_reset (rest := rest) s hr hno
  obtain ⟨u, hu, hshows⟩ := run_frames_from_reset fmt B rest t.draws hok
  have hwords : canonicalWords ws = frames.flatMap frameWords ++ frameWords B := by
    rw [canonicalWords, hbytes, List.map_append, List.map_flatMap]
    rfl
  have hcanon' := hcanon rest t.draws
  rw [hwords, hu, ← htin] at hcanon'
  obtain rfl : u = t := Host.Outcome.next.inj hcanon'
  exact ⟨u, ht, htin, hshows.code, hshows.resValid, fun _ _ _ _ => hshows.measurement, hshows.error⟩

end Sys2Proof.Machine
end

section
/-! PROOF. What the scaler rests on: its one rounding, to the nearest integer with ties to even (42_validation_and_scaling R160),
and the patterns of a format (R161), each of them an integer times a unit in the last place. -/

namespace Sys2Proof.Machine

/-! The one rounding. -/

theorem roundDivEven_bounds (n d : Nat) : n / d ≤ roundDivEven n d ∧ roundDivEven n d ≤ n / d + 1 := by
  unfold roundDivEven
  dsimp only
  split_ifs <;> omega

theorem roundDivEven_mul (m : Nat) {d : Nat} (hd : 0 < d) : roundDivEven (m * d) d = m := by
  simp [roundDivEven, hd]

/-- The rounded quotient is off by at most a half, and by a half only if it is even. -/
theorem roundDivEven_error (n : Nat) {d : Nat} (hd : 0 < d) :
    |(roundDivEven n d : ℚ) - n / d| ≤ 1 / 2 ∧
      (|(roundDivEven n d : ℚ) - n / d| = 1 / 2 → roundDivEven n d % 2 = 0) := by
  have hd' : (0 : ℚ) < d := by exact_mod_cast hd
  have hn : (n : ℚ) / d = (n / d : Nat) + (n % d : Nat) / d := by
    field_simp
    exact_mod_cast (Nat.div_add_mod n d).symm
  have hr : ((n % d : Nat) : ℚ) / d * 2 = (2 * (n % d) : Nat) / d := by push_cast; ring
  have hnonneg : (0 : ℚ) ≤ (n % d : Nat) / d := by positivity
  have hbelow : ((n % d : Nat) : ℚ) / d < 1 := by
    rw [div_lt_one hd']
    exact_mod_cast Nat.mod_lt n hd
  rw [hn]
  unfold roundDivEven
  dsimp only
  obtain h | h | h := lt_trichotomy (2 * (n % d)) d
  · have hfrac : ((2 * (n % d) : Nat) : ℚ) / d < 1 := by
      rw [div_lt_one hd']
      exact_mod_cast h
    rw [if_pos h, abs_of_nonpos (by linarith)]
    exact ⟨by linarith, fun heq => absurd heq (by linarith)⟩
  · have hfrac : ((2 * (n % d) : Nat) : ℚ) / d = 1 := by rw [h, div_self hd'.ne']
    rw [if_neg h.not_lt, if_neg h.not_gt]
    split_ifs with heven
    · rw [abs_of_nonpos (by linarith)]
      exact ⟨by linarith, fun _ => heven⟩
    · push_cast
      rw [abs_of_nonneg (by linarith)]
      exact ⟨by linarith, fun _ => by omega⟩
  · have hfrac : (1 : ℚ) < ((2 * (n % d) : Nat) : ℚ) / d := by
      rw [one_lt_div hd']
      exact_mod_cast h
    rw [if_neg h.not_gt, if_pos h]
    push_cast
    rw [abs_of_nonneg (by linarith)]
    exact ⟨by linarith, fun heq => absurd heq (by linarith)⟩

/-- Rounding to the nearest integer, ties to even, leaves no integer nearer. -/
theorem roundDivEven_nearest (n : Nat) {d : Nat} (hd : 0 < d) (m : ℤ) :
    |(roundDivEven n d : ℚ) - n / d| ≤ |(m : ℚ) - n / d| ∧
      (|(roundDivEven n d : ℚ) - n / d| = |(m : ℚ) - n / d| → m = roundDivEven n d ∨ roundDivEven n d % 2 = 0) := by
  obtain ⟨hhalf, htie⟩ := roundDivEven_error n hd
  by_cases hm : m = roundDivEven n d
  · simp [hm]
  have hgap : (1 : ℚ) ≤ |(m : ℚ) - roundDivEven n d| := by
    have : (1 : ℤ) ≤ |m - roundDivEven n d| := Int.one_le_abs (sub_ne_zero.2 hm)
    exact_mod_cast this
  have htri := abs_sub_le (m : ℚ) (n / d) (roundDivEven n d)
  rw [abs_sub_comm ((n : ℚ) / d)] at htri
  exact ⟨by linarith, fun heq => .inr (htie (by linarith))⟩

/-! The formats, and the value of a pattern as an integer times a unit in the last place. -/

theorem fracBits_ge (fmt : FloatFmt) : 23 ≤ fmt.fracBits := by cases fmt <;> decide

theorem bias_ge (fmt : FloatFmt) : 5 ≤ fmt.bias := by cases fmt <;> decide

/-- The exponent field holds the biased exponent 12, the largest of `SCALE`, with all ones left over. -/
theorem bias_lt_expRange (fmt : FloatFmt) : fmt.bias + 13 < 2 ^ fmt.expBits := by cases fmt <;> decide

/-- A pattern is a sign, an exponent field and a fraction field (R161). -/
theorem width_eq (fmt : FloatFmt) : fmt.width = fmt.expBits + fmt.fracBits + 1 := by cases fmt <;> rfl

/-- The unit in the last place of a normal pattern with this exponent field. -/
def ulp (fmt : FloatFmt) (e : Nat) : ℚ := 2 ^ e / 2 ^ (fmt.bias + fmt.fracBits)

theorem ulp_pos (fmt : FloatFmt) (e : Nat) : 0 < ulp fmt e := by
  unfold ulp
  positivity

theorem ulp_add (fmt : FloatFmt) (e k : Nat) : ulp fmt (e + k) = 2 ^ k * ulp fmt e := by
  unfold ulp
  ring

theorem ulp_mono (fmt : FloatFmt) {e e' : Nat} (h : e ≤ e') : ulp fmt e ≤ ulp fmt e' := by
  unfold ulp
  gcongr
  norm_num

/-- A magnitude is an integer of at most `fracBits + 1` bits times a unit; a subnormal has the unit of the lowest normal
binade. -/
theorem floatMagnitude_eq (fmt : FloatFmt) (x : BitVec fmt.width) :
    ∃ m e : Nat, m < 2 ^ (fmt.fracBits + 1) ∧ floatMagnitude fmt x = m * ulp fmt e := by
  have hfrac : floatFrac fmt x < 2 ^ fmt.fracBits := Nat.mod_lt _ (by positivity)
  unfold floatMagnitude ulp
  split
  · exact ⟨floatFrac fmt x, 1, by omega, by ring⟩
  · exact ⟨2 ^ fmt.fracBits + floatFrac fmt x, floatExp fmt x, by omega, by ring⟩

theorem floatMagnitude_nonneg (fmt : FloatFmt) (x : BitVec fmt.width) : 0 ≤ floatMagnitude fmt x := by
  obtain ⟨m, e, -, hx⟩ := floatMagnitude_eq fmt x
  rw [hx]
  exact mul_nonneg m.cast_nonneg (ulp_pos fmt e).le

/-- Every magnitude is an integer multiple of a given unit, or below the lowest normal magnitude with that unit. -/
theorem floatMagnitude_multiple_or_below (fmt : FloatFmt) (x : BitVec fmt.width) (e : Nat) :
    (∃ m : Nat, floatMagnitude fmt x = m * ulp fmt e) ∨ floatMagnitude fmt x < 2 ^ fmt.fracBits * ulp fmt e := by
  obtain ⟨m, e', hm, hx⟩ := floatMagnitude_eq fmt x
  rw [hx]
  obtain ⟨k, rfl⟩ | ⟨k, rfl⟩ : (∃ k, e' = e + k) ∨ ∃ k, e = e' + k + 1 := by
    rcases Nat.lt_or_ge e' e with h | h
    · exact .inr ⟨e - e' - 1, by omega⟩
    · exact .inl ⟨e' - e, by omega⟩
  · refine .inl ⟨m * 2 ^ k, ?_⟩
    rw [ulp_add]
    push_cast
    ring
  · have hm' : (m : ℚ) < 2 ^ (fmt.fracBits + 1) := by exact_mod_cast hm
    refine .inr ?_
    calc (m : ℚ) * ulp fmt e' < 2 ^ (fmt.fracBits + 1) * ulp fmt e' := by gcongr; exact ulp_pos fmt e'
      _ = 2 ^ fmt.fracBits * ulp fmt (e' + 1) := by rw [ulp_add]; ring
      _ ≤ 2 ^ fmt.fracBits * ulp fmt (e' + k + 1) := by gcongr; exact ulp_mono fmt (by omega)

/-- The same for the number a pattern stands for; a negative one lies below. -/
theorem floatValue_multiple_or_below (fmt : FloatFmt) (x : BitVec fmt.width) (e : Nat) :
    (∃ m : ℤ, floatValue fmt x = m * ulp fmt e) ∨ floatValue fmt x < 2 ^ fmt.fracBits * ulp fmt e := by
  unfold floatValue
  split
  · have hneg := neg_nonpos.2 (floatMagnitude_nonneg fmt x)
    exact .inr (hneg.trans_lt (mul_pos (by positivity) (ulp_pos fmt e)))
  · obtain ⟨m, hm⟩ | hlt := floatMagnitude_multiple_or_below fmt x e
    · exact .inl ⟨m, by exact_mod_cast hm⟩
    · exact .inr hlt

/-- The pattern with sign bit 0 and these two fields (R161). -/
theorem fields_ofNat {fmt : FloatFmt} {e f : Nat} (he : e < 2 ^ fmt.expBits) (hf : f < 2 ^ fmt.fracBits) :
    let x := BitVec.ofNat fmt.width (e * 2 ^ fmt.fracBits + f)
    x.toNat = e * 2 ^ fmt.fracBits + f ∧ floatSign fmt x = false ∧ floatExp fmt x = e ∧ floatFrac fmt x = f := by
  intro x
  have hlt : 2 * (e * 2 ^ fmt.fracBits + f) < 2 ^ fmt.width := by
    have hsucc : (e + 1) * 2 ^ fmt.fracBits ≤ 2 ^ fmt.expBits * 2 ^ fmt.fracBits := Nat.mul_le_mul_right _ he
    rw [width_eq, pow_succ, pow_add]
    linarith
  have hx : x.toNat = e * 2 ^ fmt.fracBits + f := by
    rw [BitVec.toNat_ofNat, Nat.mod_eq_of_lt (by omega)]
  refine ⟨hx, ?sign, ?exp, ?frac⟩
  case sign => rwa [floatSign, BitVec.msb_eq_false_iff_two_mul_lt, hx]
  case exp =>
    rw [floatExp, hx, Nat.mul_comm e, Nat.mul_add_div (Nat.two_pow_pos _), Nat.div_eq_of_lt hf, Nat.add_zero,
      Nat.mod_eq_of_lt he]
  case frac => rw [floatFrac, hx, Nat.mul_comm e, Nat.mul_add_mod, Nat.mod_eq_of_lt hf]

end Sys2Proof.Machine
end

section
/-! PROOF. The scaler (42_validation_and_scaling R160 to R162): its significand is `raw / 10` in units in the last place of its
binade, rounded, so its value is that integer times that unit (O43, O44, O45); and every pattern is an integer multiple of that
unit, unless it lies below the binade (O42). -/

namespace Sys2Proof.Machine

/-! The binade and the significand of `raw / 10`. -/

/-- `2^(k-4) ≤ raw / 10 < 2^(k-3)` for the binade `k`. -/
theorem scaleBinade_bounds {raw : Nat} (h : raw ≠ 0) :
    10 * 2 ^ scaleBinade raw ≤ 16 * raw ∧ 16 * raw < 10 * 2 ^ (scaleBinade raw + 1) := by
  have hne : 16 * raw / scaleDiv ≠ 0 := by simp only [scaleDiv]; omega
  have hle : 2 ^ scaleBinade raw ≤ 16 * raw / scaleDiv := Nat.log2_self_le hne
  have hlt : 16 * raw / scaleDiv < 2 ^ (scaleBinade raw + 1) := Nat.lt_log2_self
  simp only [scaleDiv] at hle hlt
  omega

theorem scaleBinade_le {raw : Nat} (h : raw ≠ 0) (hlt : raw < 65536) : scaleBinade raw ≤ 16 := by
  obtain ⟨hle, -⟩ := scaleBinade_bounds h
  have : 2 ^ scaleBinade raw < 2 ^ 17 := by omega
  exact Nat.lt_succ_iff.1 ((Nat.pow_lt_pow_iff_right (by decide)).1 this)

theorem scaleBinade_mono {a b : Nat} (h : a ≤ b) : scaleBinade a ≤ scaleBinade b := by
  simp only [scaleBinade, Nat.log2_eq_log_two]
  exact Nat.log_mono_right (Nat.div_le_div_right (Nat.mul_le_mul_left 16 h))

/-- What the scaler divides by 10 and rounds: `raw` in units in the last place of the binade of `raw / 10`. -/
def scaleDividend (fmt : FloatFmt) (raw : Nat) : Nat := raw * 2 ^ (fmt.fracBits + 4 - scaleBinade raw)

theorem scaleSignificand_eq (fmt : FloatFmt) (raw : Nat) :
    scaleSignificand fmt raw = roundDivEven (scaleDividend fmt raw) scaleDiv := rfl

/-- The quotient is in its binade, with more than one unit to spare at the top: a step of `raw` is `2^7` units or more. -/
theorem scaleDividend_bounds (fmt : FloatFmt) {raw : Nat} (h : raw ≠ 0) (hlt : raw < 65536) :
    10 * 2 ^ fmt.fracBits ≤ scaleDividend fmt raw ∧ scaleDividend fmt raw + 10 < 10 * 2 ^ (fmt.fracBits + 1) := by
  obtain ⟨hle, hgt⟩ := scaleBinade_bounds h
  have hk := scaleBinade_le h hlt
  have hp := fracBits_ge fmt
  obtain ⟨e, he⟩ : ∃ e, fmt.fracBits = scaleBinade raw + (7 + e) := ⟨fmt.fracBits - scaleBinade raw - 7, by omega⟩
  have hdividend : scaleDividend fmt raw = 16 * raw * 2 ^ (7 + e) := by
    rw [scaleDividend, he, show scaleBinade raw + (7 + e) + 4 - scaleBinade raw = 4 + (7 + e) by omega]
    ring
  rw [hdividend, he]
  constructor
  · calc 10 * 2 ^ (scaleBinade raw + (7 + e)) = 10 * 2 ^ scaleBinade raw * 2 ^ (7 + e) := by ring
      _ ≤ 16 * raw * 2 ^ (7 + e) := Nat.mul_le_mul_right _ hle
  · have hspare : 10 < 2 ^ (7 + e) := lt_of_lt_of_le (by decide) (Nat.pow_le_pow_right (by decide) (Nat.le_add_right 7 e))
    calc 16 * raw * 2 ^ (7 + e) + 10 < (16 * raw + 1) * 2 ^ (7 + e) := by linarith
      _ ≤ 10 * 2 ^ (scaleBinade raw + 1) * 2 ^ (7 + e) := Nat.mul_le_mul_right _ hgt
      _ = 10 * 2 ^ (scaleBinade raw + (7 + e) + 1) := by ring

/-- The significand has its leading bit, and never rounds up to the next binade. -/
theorem scaleSignificand_bounds (fmt : FloatFmt) {raw : Nat} (h : raw ≠ 0) (hlt : raw < 65536) :
    2 ^ fmt.fracBits ≤ scaleSignificand fmt raw ∧ scaleSignificand fmt raw < 2 ^ (fmt.fracBits + 1) := by
  obtain ⟨hle, hgt⟩ := scaleDividend_bounds fmt h hlt
  obtain ⟨hlow, hhigh⟩ := roundDivEven_bounds (scaleDividend fmt raw) scaleDiv
  rw [scaleSignificand_eq]
  simp only [scaleDiv] at hlow hhigh ⊢
  omega

/-! The fields and the value of `SCALE(raw)`. -/

/-- The biased exponent of `raw / 10`. -/
def scaleExp (fmt : FloatFmt) (raw : Nat) : Nat := scaleBinade raw + fmt.bias - 4

theorem scaleExp_bounds (fmt : FloatFmt) {raw : Nat} (h : raw ≠ 0) (hlt : raw < 65536) :
    0 < scaleExp fmt raw ∧ scaleExp fmt raw ≤ fmt.bias + 12 := by
  have hk := scaleBinade_le h hlt
  have hb := bias_ge fmt
  unfold scaleExp
  omega

theorem scaleExp_mono (fmt : FloatFmt) {a b : Nat} (h : a ≤ b) : scaleExp fmt a ≤ scaleExp fmt b :=
  Nat.sub_le_sub_right (Nat.add_le_add_right (scaleBinade_mono h) _) 4

/-- `raw / 10` in units in the last place of its binade. -/
theorem div_ten_eq (fmt : FloatFmt) {raw : Nat} (h : raw ≠ 0) (hlt : raw < 65536) :
    (raw : ℚ) / 10 = (scaleDividend fmt raw : ℚ) / scaleDiv * ulp fmt (scaleExp fmt raw) := by
  have hk := scaleBinade_le h hlt
  have hp := fracBits_ge fmt
  have hb := bias_ge fmt
  have hpow : (2 : ℚ) ^ (fmt.bias + fmt.fracBits) =
      2 ^ (fmt.fracBits + 4 - scaleBinade raw) * 2 ^ scaleExp fmt raw := by
    rw [← pow_add, scaleExp]
    congr 1
    omega
  rw [scaleDividend, ulp, hpow, scaleDiv]
  push_cast
  field_simp

/-- The pattern and the fields of `SCALE(raw)` above 0: the fraction is the significand without its leading bit (R160). -/
theorem scale_fields (fmt : FloatFmt) {raw : Half} (h : raw.toNat ≠ 0) :
    let f := scaleSignificand fmt raw.toNat - 2 ^ fmt.fracBits
    (scale fmt raw).toNat = scaleExp fmt raw.toNat * 2 ^ fmt.fracBits + f ∧ floatSign fmt (scale fmt raw) = false ∧
      floatExp fmt (scale fmt raw) = scaleExp fmt raw.toNat ∧ floatFrac fmt (scale fmt raw) = f := by
  obtain ⟨-, hexp⟩ := scaleExp_bounds fmt h raw.isLt
  obtain ⟨-, hsig⟩ := scaleSignificand_bounds fmt h raw.isLt
  have hrange := bias_lt_expRange fmt
  rw [scale, scaleNat, if_neg h]
  exact fields_ofNat (e := scaleExp fmt raw.toNat) (by omega) (by omega)

theorem scale_eq_zero {fmt : FloatFmt} {raw : Half} (h : raw.toNat = 0) : scale fmt raw = 0#fmt.width := by
  rw [BitVec.eq_of_toNat_eq (y := 0#16) h, scale_zero]

@[simp] theorem floatValue_zero (fmt : FloatFmt) : floatValue fmt 0#fmt.width = 0 := by
  simp [floatValue, floatSign, floatMagnitude, floatExp, floatFrac]

/-- The value of `SCALE(raw)` is its significand times its unit in the last place. -/
theorem floatValue_scale (fmt : FloatFmt) {raw : Half} (h : raw.toNat ≠ 0) :
    floatValue fmt (scale fmt raw) = scaleSignificand fmt raw.toNat * ulp fmt (scaleExp fmt raw.toNat) := by
  obtain ⟨-, hsign, hexp, hfrac⟩ := scale_fields fmt h
  obtain ⟨hpos, -⟩ := scaleExp_bounds fmt h raw.isLt
  obtain ⟨hlead, -⟩ := scaleSignificand_bounds fmt h raw.isLt
  rw [floatValue, hsign, floatMagnitude, hexp, hfrac, if_neg hpos.ne', Nat.add_sub_cancel' hlead, ulp]
  exact mul_div_assoc ..

/-! Nearness to `raw / 10`. -/

/-- A distance measured in units in the last place. -/
theorem abs_sub_mul_ulp (fmt : FloatFmt) (e : Nat) (a b : ℚ) : |a * ulp fmt e - b * ulp fmt e| = |a - b| * ulp fmt e := by
  rw [← sub_mul, abs_mul, abs_of_pos (ulp_pos fmt e)]

/-- The rounding is off by at most half a unit in the last place. -/
theorem scale_error (fmt : FloatFmt) {raw : Half} (h : raw.toNat ≠ 0) :
    |floatValue fmt (scale fmt raw) - (raw.toNat : ℚ) / 10| ≤ 1 / 2 * ulp fmt (scaleExp fmt raw.toNat) := by
  obtain ⟨hhalf, -⟩ := roundDivEven_error (scaleDividend fmt raw.toNat) (d := scaleDiv) (by decide)
  rw [floatValue_scale fmt h, div_ten_eq fmt h raw.isLt, abs_sub_mul_ulp]
  exact mul_le_mul_of_nonneg_right hhalf (ulp_pos ..).le

/-- No multiple of its unit is nearer to `raw / 10` than `SCALE(raw)`. -/
theorem scale_nearest_multiple (fmt : FloatFmt) {raw : Half} (h : raw.toNat ≠ 0) (m : ℤ) :
    let u := ulp fmt (scaleExp fmt raw.toNat)
    |floatValue fmt (scale fmt raw) - (raw.toNat : ℚ) / 10| ≤ |m * u - (raw.toNat : ℚ) / 10| ∧
      (|floatValue fmt (scale fmt raw) - (raw.toNat : ℚ) / 10| = |m * u - (raw.toNat : ℚ) / 10| →
        m * u = floatValue fmt (scale fmt raw) ∨ scaleSignificand fmt raw.toNat % 2 = 0) := by
  intro u
  have hu : 0 < u := ulp_pos ..
  obtain ⟨hle, htie⟩ := roundDivEven_nearest (scaleDividend fmt raw.toNat) (d := scaleDiv) (by decide) m
  rw [floatValue_scale fmt h, div_ten_eq fmt h raw.isLt, abs_sub_mul_ulp, abs_sub_mul_ulp]
  refine ⟨mul_le_mul_of_nonneg_right hle hu.le, fun heq => ?_⟩
  obtain rfl | heven := htie (mul_right_cancel₀ hu.ne' heq)
  · exact .inl rfl
  · exact .inr heven

/-- The lowest value of the binade is not above `raw / 10`. -/
theorem binade_le_div_ten (fmt : FloatFmt) {raw : Half} (h : raw.toNat ≠ 0) :
    2 ^ fmt.fracBits * ulp fmt (scaleExp fmt raw.toNat) ≤ (raw.toNat : ℚ) / 10 := by
  obtain ⟨hle, -⟩ := scaleDividend_bounds fmt h raw.isLt
  rw [div_ten_eq fmt h raw.isLt]
  refine mul_le_mul_of_nonneg_right ?_ (ulp_pos ..).le
  rw [le_div_iff₀ (by norm_num [scaleDiv]), mul_comm]
  exact_mod_cast hle

/-- No pattern is nearer to `raw / 10` than `SCALE(raw)`: not a multiple of its unit, and not a value below its binade, since the
lowest value of the binade, a multiple of the unit, lies between. -/
theorem scale_nearest (fmt : FloatFmt) {raw : Half} (h : raw.toNat ≠ 0) (x : BitVec fmt.width) :
    |floatValue fmt (scale fmt raw) - (raw.toNat : ℚ) / 10| ≤ |floatValue fmt x - (raw.toNat : ℚ) / 10| ∧
      (|floatValue fmt (scale fmt raw) - (raw.toNat : ℚ) / 10| = |floatValue fmt x - (raw.toNat : ℚ) / 10| →
        floatValue fmt x = floatValue fmt (scale fmt raw) ∨ scaleSignificand fmt raw.toNat % 2 = 0) := by
  obtain ⟨m, hm⟩ | hbelow := floatValue_multiple_or_below fmt x (scaleExp fmt raw.toNat)
  · rw [hm]
    exact scale_nearest_multiple fmt h m
  · have hlow := binade_le_div_ten fmt h
    obtain ⟨hle, -⟩ := scale_nearest_multiple fmt h (2 ^ fmt.fracBits)
    push_cast at hle
    rw [abs_of_nonpos (sub_nonpos.2 hlow)] at hle
    have hlt : |floatValue fmt (scale fmt raw) - (raw.toNat : ℚ) / 10| < |floatValue fmt x - (raw.toNat : ℚ) / 10| :=
      hle.trans_lt (lt_abs.2 (.inr (by linarith)))
    exact ⟨hlt.le, fun heq => absurd heq hlt.ne⟩

/-- The exponent field of `SCALE` is never all ones. -/
theorem scale_finite (fmt : FloatFmt) (raw : Half) : floatFinite fmt (scale fmt raw) = true := by
  have hrange := bias_lt_expRange fmt
  rw [floatFinite, bne_iff_ne]
  by_cases h : raw.toNat = 0
  · have hexp : floatExp fmt 0#fmt.width = 0 := by simp [floatExp]
    rw [scale_eq_zero h, hexp]
    omega
  · obtain ⟨-, -, hexp, -⟩ := scale_fields fmt h
    obtain ⟨-, hle⟩ := scaleExp_bounds fmt h raw.isLt
    rw [hexp]
    omega

/-- Settles O42: 0 is exact, and elsewhere the fraction is even exactly when the significand is. -/
theorem scaleIsNearestTiesToEven : Obligations.ScaleIsNearestTiesToEven := by
  refine fun fmt raw => ⟨scale_finite fmt raw, fun x _ => ?_⟩
  by_cases h : raw.toNat = 0
  · rw [scale_eq_zero h, floatValue_zero, h]
    simp only [CharP.cast_eq_zero, zero_div, sub_zero, abs_zero]
    exact ⟨abs_nonneg _, fun heq => .inl (abs_eq_zero.1 heq.symm)⟩
  · obtain ⟨hle, htie⟩ := scale_nearest fmt h x
    refine ⟨hle, fun heq => (htie heq).imp_right fun heven => ?_⟩
    obtain ⟨-, -, -, hfrac⟩ := scale_fields fmt h
    obtain ⟨hlead, -⟩ := scaleSignificand_bounds fmt h raw.isLt
    have hp := fracBits_ge fmt
    have hpow : 2 ∣ 2 ^ fmt.fracBits := dvd_pow_self 2 (by omega)
    rw [hfrac]
    omega

/-- The dividend is `raw` times a power of two, and even; so 10 divides it exactly when 5 divides `raw`. -/
theorem scale_exact_iff (fmt : FloatFmt) (raw : Half) :
    floatValue fmt (scale fmt raw) = (raw.toNat : ℚ) / 10 ↔ raw.toNat % 5 = 0 := by
  by_cases h : raw.toNat = 0
  · simp [scale_eq_zero h, h]
  have hk := scaleBinade_le h raw.isLt
  have hp := fracBits_ge fmt
  obtain ⟨e, he⟩ : ∃ e, fmt.fracBits + 4 - scaleBinade raw.toNat = 1 + e := Nat.exists_eq_add_of_le (by omega)
  have hdividend : scaleDividend fmt raw.toNat = 2 * (raw.toNat * 2 ^ e) := by
    rw [scaleDividend, he]
    ring
  rw [floatValue_scale fmt h, div_ten_eq fmt h raw.isLt, mul_left_inj' (ulp_pos ..).ne', hdividend]
  constructor
  · intro heq
    have hprod : raw.toNat * 2 ^ e = 5 * scaleSignificand fmt raw.toNat := by
      rw [eq_div_iff (by norm_num [scaleDiv]), scaleDiv] at heq
      have hnat : scaleSignificand fmt raw.toNat * 10 = 2 * (raw.toNat * 2 ^ e) := by exact_mod_cast heq
      omega
    have hcop : Nat.Coprime 5 (2 ^ e) := Nat.Coprime.pow_right e (by decide)
    exact Nat.mod_eq_zero_of_dvd (hcop.dvd_of_dvd_mul_right ⟨_, hprod⟩)
  · intro h5
    obtain ⟨c, hc⟩ := Nat.dvd_of_mod_eq_zero h5
    have hmul : 2 * (raw.toNat * 2 ^ e) = c * 2 ^ e * scaleDiv := by
      rw [hc, scaleDiv]
      ring
    rw [scaleSignificand_eq, hdividend, hmul, roundDivEven_mul _ (by decide), Nat.cast_mul (c * 2 ^ e) scaleDiv]
    exact (mul_div_cancel_right₀ _ (by norm_num [scaleDiv])).symm

/-- Settles O45: 5 divides `raw` exactly when the rounding has nothing to round. -/
theorem scaleExactIffMultipleOfFive : Obligations.ScaleExactIffMultipleOfFive := scale_exact_iff

/-- Settles O43: the fields of `SCALE`, and 65535 is a multiple of 5. -/
theorem scaleSignAndRange : Obligations.ScaleSignAndRange := by
  refine fun fmt => ⟨fun raw => ⟨?sign, scale_finite fmt raw, fun hraw => ?normal⟩, scale_zero fmt, ?top⟩
  case sign =>
    by_cases h : raw.toNat = 0
    · simp [scale_eq_zero h, floatSign]
    · obtain ⟨-, hsign, -⟩ := scale_fields fmt h
      exact hsign
  case normal =>
    have h : raw.toNat ≠ 0 := fun h => hraw (BitVec.eq_of_toNat_eq h)
    obtain ⟨-, -, hexp, -⟩ := scale_fields fmt h
    obtain ⟨hpos, -⟩ := scaleExp_bounds fmt h raw.isLt
    rw [hexp]
    exact hpos.ne'
  case top => exact (scale_exact_iff fmt 65535#16).2 rfl

/-! Order. -/

/-- The unit in the last place of the values from `2^k` up. -/
theorem ulp_bias_add (fmt : FloatFmt) (k : Nat) : ulp fmt (fmt.bias + k) = 2 ^ k / 2 ^ fmt.fracBits := by
  rw [ulp, pow_add, pow_add]
  exact mul_div_mul_left _ _ (by positivity)

/-- The rounding is finer than half the distance between two values of `raw / 10`. -/
theorem scale_near (fmt : FloatFmt) (raw : Half) : |floatValue fmt (scale fmt raw) - (raw.toNat : ℚ) / 10| < 1 / 20 := by
  by_cases h : raw.toNat = 0
  · norm_num [scale_eq_zero h, h]
  obtain ⟨-, hle⟩ := scaleExp_bounds fmt h raw.isLt
  have hulp : ulp fmt (scaleExp fmt raw.toNat) ≤ 1 / 2 ^ 11 :=
    calc ulp fmt (scaleExp fmt raw.toNat) ≤ 2 ^ 12 / 2 ^ fmt.fracBits := ulp_bias_add fmt 12 ▸ ulp_mono fmt hle
      _ ≤ 2 ^ 12 / 2 ^ 23 := by gcongr; exacts [by norm_num, fracBits_ge fmt]
      _ = 1 / 2 ^ 11 := by norm_num
  have herror := scale_error fmt h
  norm_num at hulp
  linarith

theorem floatValue_scale_lt (fmt : FloatFmt) {a b : Half} (h : a.toNat < b.toNat) :
    floatValue fmt (scale fmt a) < floatValue fmt (scale fmt b) := by
  obtain ⟨-, ha⟩ := abs_lt.1 (scale_near fmt a)
  obtain ⟨hb, -⟩ := abs_lt.1 (scale_near fmt b)
  have hab : (a.toNat : ℚ) + 1 ≤ b.toNat := by exact_mod_cast h
  linarith

/-- In a higher binade the exponent field is greater; in the same one the significand is, since the value is. -/
theorem scale_toNat_lt (fmt : FloatFmt) {a b : Half} (h : a.toNat < b.toNat) :
    (scale fmt a).toNat < (scale fmt b).toNat := by
  have hb : b.toNat ≠ 0 := Nat.ne_zero_of_lt h
  obtain ⟨hpatb, -⟩ := scale_fields fmt hb
  obtain ⟨hposb, -⟩ := scaleExp_bounds fmt hb b.isLt
  rw [hpatb]
  by_cases ha : a.toNat = 0
  · rw [scale_eq_zero ha]
    simp only [BitVec.toNat_ofNat, Nat.zero_mod]
    positivity
  obtain ⟨hpata, -⟩ := scale_fields fmt ha
  obtain ⟨hlow, hhigh⟩ := scaleSignificand_bounds fmt ha a.isLt
  rw [hpata]
  obtain hlt | heq : scaleExp fmt a.toNat < scaleExp fmt b.toNat ∨ scaleExp fmt a.toNat = scaleExp fmt b.toNat :=
    (scaleExp_mono fmt h.le).lt_or_eq
  · have hnext : (scaleExp fmt a.toNat + 1) * 2 ^ fmt.fracBits ≤ scaleExp fmt b.toNat * 2 ^ fmt.fracBits :=
      Nat.mul_le_mul_right _ hlt
    rw [Nat.succ_mul] at hnext
    omega
  · have hvalue := floatValue_scale_lt fmt h
    rw [floatValue_scale fmt ha, floatValue_scale fmt hb, heq, mul_lt_mul_iff_left₀ (ulp_pos ..)] at hvalue
    have hsig : scaleSignificand fmt a.toNat < scaleSignificand fmt b.toNat := by exact_mod_cast hvalue
    rw [heq]
    omega

/-- Settles O44: the patterns increase field by field, and the values because the rounding is finer than a tenth. -/
theorem scaleStrictlyIncreasing : Obligations.ScaleStrictlyIncreasing :=
  fun fmt _ _ h => ⟨scale_toNat_lt fmt h, floatValue_scale_lt fmt h⟩

end Sys2Proof.Machine
end

section
/-! PROOF. Reset and the read window (70_reset_and_hazards R220, R222, R223): the outputs after RESET (O39), the step at which the
outcome of a frame shows (O40), and that it then holds until the next completion or RESET (O41). -/

namespace Sys2Proof.Machine

/-! The state that RESET leaves, at the ports. -/

/-- Settles O39: RESET writes every register, so the ports show constants, the scaled ones `SCALE(0)`. -/
theorem outputsAfterReset : Obligations.OutputsAfterReset := by
  intro s w rest hr
  refine ⟨_, step_of_fieldR rfl hr, rfl, rfl, rfl, ?stat, rfl, rfl, rfl, fun fmt => ⟨scale_zero fmt, scale_zero fmt⟩⟩
  case stat =>
    have hpack : packStat State.reset = 0x00#8 := rfl
    exact (outStat_of_rstSeen rfl).trans hpack

/-! The step of the tail byte. -/

/-- A state of R40 that waits for the tail byte is in RUN mode with no current result. -/
theorem State.Inv.awaiting_tail {s : State} (hs : s.Inv) (hidx : s.idx = 9#4) : s.halted = false ∧ s.resValid = false := by
  have hrun : s.halted = false := by
    obtain ⟨-, -, hhalted, -⟩ := hs
    rw [← Bool.not_eq_true]
    intro hh
    obtain ⟨-, -, hzero, -⟩ := hhalted hh
    simp [hidx] at hzero
  have hvalid := resValid_only_at_zero hs hrun
  exact ⟨hrun, by simpa [hidx] using hvalid⟩

/-- A result is current after every completion (41_frame_bytes R129). -/
@[simp] theorem completeFrame_resValid (tailOk : Bool) (s : State) : (completeFrame tailOk s).resValid = true := by
  obtain ⟨st, p25, p10, hlt, hc⟩ := completeFrame_writes_report tailOk s
  simp [hc]

theorem statusCode_eq_zero_iff (st : FrameStatus) : statusCode st = 0#2 ↔ st = .none := by
  cases st <;> simp [statusCode]

/-- Settles O40: R40 holds before and after the completion. Before it no result is current at position 9; after it one is, and
then the outcome is not NONE (clause 3). -/
theorem resultLatency : Obligations.ResultLatency := by
  intro s b rest hs hidx
  obtain ⟨hrun, hvalid⟩ := hs.awaiting_tail hidx
  obtain ⟨hrst, -⟩ := hs
  obtain ⟨-, hstep⟩ := exec_and_step_of_row (exec_byteTail_iff b) rfl hrst hrun hidx rest
  obtain ⟨hrst', -, -, hnone, -⟩ := completeFrame_inv (tailMatches b) (s := { s with inputs := rest }) hrst hrun
  rw [outStat_of_rstSeen hrst, statResValid_packStat, statBytePos_packStat]
  refine ⟨hvalid, hidx, _, hstep, ?_⟩
  rw [outStat_of_rstSeen hrst', statResValid_packStat, statBytePos_packStat, statStatus_packStat, Ne,
    statusCode_eq_zero_iff]
  refine ⟨completeFrame_resValid .., rfl, fun hst => ?_⟩
  obtain ⟨hinvalid, -⟩ := hnone hst
  simp at hinvalid

/-! Between completions. -/

/-- The report of a frame has two writers, RESET and the tail's row (10_state section 5). -/
theorem exec_keeps_report {i : Instr} {s t : State} (h : exec i s = .next t) (hreset : i ≠ .reset)
    (htail : ∀ b, i ≠ .byteTail b) : SameReport s t := by
  obtain ⟨-, -, -, -, -, -, -, hreport, hrst, -⟩ := registerWriters i s t h
  have hkept := mt hreport (by simp [hreset, htail])
  simp only [not_or, not_not] at hkept
  obtain ⟨hstatus, hpm25, hpm10, hhalted⟩ := hkept
  exact ⟨not_imp_comm.1 hrst hreset, hhalted, hstatus, hpm25, hpm10⟩

/-- A step runs one of the two only on a RESET word, or on a byte accepted at position 9. -/
theorem step_keeps_report {s t : State} {w : Word} {rest : List Word} (hin : s.inputs = w :: rest) (h : step s = .next t)
    (hr : fieldR w = false) (hnot : ¬(accepts s w = true ∧ s.idx = 9#4)) : SameReport s t := by
  obtain ⟨w', rest', i, hin', hd, hexec⟩ := step_next_exec h
  obtain ⟨rfl, rfl⟩ := List.cons.inj (hin'.symm.trans hin)
  obtain ⟨hguard, ht⟩ := (decode_eq_instr_iff ..).1 hd
  have hreset : i ≠ .reset := by
    rintro rfl
    simp [(decodeT_eq_reset_iff _).1 ht] at hr
  have htail : ∀ b, i ≠ .byteTail b := by
    rintro b rfl
    obtain ⟨-, hv, -⟩ := (decodeT_eq_byte_iff _ b).1 ht
    have hstate : (s.rstSeen = true ∧ s.halted = false) ∧ s.idx = 9#4 := by simpa [tableGuard] using hguard
    obtain ⟨⟨hrst, hrun⟩, hidx⟩ := hstate
    exact hnot ⟨(accepts_iff s _).2 ⟨hr, hv, hrst, hrun⟩, hidx⟩
  obtain ⟨hrst, hhalted, hstatus, hpm25, hpm10⟩ := exec_keeps_report hexec hreset htail
  exact ⟨hrst, hhalted, hstatus, hpm25, hpm10⟩

/-- Settles O41: the outcome and both results are part of the report. -/
theorem resultsHoldUntilNextCompletion : Obligations.ResultsHoldUntilNextCompletion := by
  intro s t w rest hin h hr hnot
  have hkept : SameReport s t := by
    refine step_keeps_report hin h hr fun ⟨hacc, hidx⟩ => ?_
    obtain ⟨-, hv, -, hrun⟩ := (accepts_iff s w).1 hacc
    exact hnot ⟨hv, hrun, hidx⟩
  exact ⟨hkept.status, hkept.pm25Raw, hkept.pm10Raw⟩

end Sys2Proof.Machine
end

section
/-! PROOF. A row completes exactly under its guard (opcode table, guard column; O11), and the written-out words of the vectors
(30_encoding R70 to R73; O6). -/

namespace Sys2Proof.Machine

theorem byteStop_ne_next (s t : State) : byteStop s ≠ .next t := by
  unfold byteStop
  split
  · simp
  · split <;> simp

/-- A row that completes meets its guard: RESET and IDLE have none to meet, and a BYTE row outside its guard stops. -/
theorem tableGuard_of_exec_next {i : Instr} {s t : State} (h : exec i s = .next t) :
    tableGuard s.rstSeen s.halted s.idx i = true := by
  obtain rfl | rfl | ⟨b, hb⟩ := i.cases_operandByte
  · rfl
  · rfl
  · by_contra hguard
    have hstop : exec i s = byteStop s := byteRowStopsOutsideGuard i b s hb (Bool.eq_false_of_not_eq_true hguard)
    exact byteStop_ne_next s t (hstop.symm.trans h)

/-- Settles O11: completion forces the guard, and under its guard a row completes. -/
theorem rowCompletesExactlyUnderGuard : Obligations.RowCompletesExactlyUnderGuard :=
  fun _ _ => ⟨fun ⟨_, h⟩ => tableGuard_of_exec_next h, exec_next_of_tableGuard⟩

/-- Settles O6: each clause evaluates the decoder on one written-out word. -/
theorem writtenOutWordsDecode : Obligations.WrittenOutWordsDecode := by
  unfold Obligations.WrittenOutWordsDecode
  decide

end Sys2Proof.Machine
end
